-- ==== Sys2Proof/Word.lean ====
section
/-! DEFINITION. The widths of the core's values (`00_scope.md` R13) and the two code forms of the opcode table. -/

namespace Sys2Proof

/-- u8: a host data byte, a host address, a CMD byte, an entry of KEY, L or PI. -/
abbrev Byte := BitVec 8

/-- u16: a block word R[i] or a subkey word K[i]. -/
abbrev Word := BitVec 16

/-- u6: the subkey cursor j (`10_state.md` R34). Its arithmetic wraps modulo 64 by its width. -/
abbrev Cursor := BitVec 6

/-- A 32-bit host transaction word (`30_encoding.md` R95). -/
abbrev Htw := BitVec 32

/-- The two code forms of `spec/opcode_table.json`: a CMD8 command byte, which is one byte written to CMD
(`30_encoding.md` R90), and a host transaction word (R95). -/
inductive Code where
  | cmd8 (v : Byte)
  | htw (w : Htw)
  deriving DecidableEq, Repr

end Sys2Proof
end

