-- ==== Sys2Proof/Syntax.lean ====
section
/-! DEFINITION. The instructions: one constructor per row of `spec/opcode_table.json`. -/

namespace Sys2Proof

/-- The six commands of the CMD port (`30_encoding.md` R92; every operand is implicit, R91) and the two host accesses
(R95). -/
inductive Instr where
  /-- NOP, CMD byte 0x00 (`44_control.md` R231). -/
  | nop
  /-- KEYSCHED, CMD byte 0x01 (`41_key_schedule.md` R150). -/
  | keysched
  /-- ENCRYPT, CMD byte 0x02 (`42_encrypt.md` R175). -/
  | encrypt
  /-- DECRYPT, CMD byte 0x03 (`43_decrypt.md` R204). -/
  | decrypt
  /-- SBOX, CMD byte 0x04 (`40_sbox.md` R123). -/
  | sbox
  /-- ZEROIZE, CMD byte 0x05 (`44_control.md` R232). -/
  | zeroize
  /-- WR: the host write MemWrite(addr, 1, data) (`20_memory.md` R62). -/
  | wr (addr data : Byte)
  /-- RD: the host read MemRead(addr, 1) (`20_memory.md` R63). -/
  | rd (addr : Byte)
  deriving DecidableEq, Repr

end Sys2Proof
end

