-- ==== Sys2Proof/WellFormed.lean ====
section
/-! DEFINITION. Which codes are instructions, read from the format rules R90, R93 and R95 of `30_encoding.md` and written apart
from the decoder, so that the two can be compared (the obligation DecodesIffWellFormed). -/

namespace Sys2Proof

/-- Every term of `Instr` is well formed: its operands are u8 by their type, and R61 gives every u8 address a meaning. -/
def Instr.wf : Instr → Bool
  | .nop => true
  | .keysched => true
  | .encrypt => true
  | .decrypt => true
  | .sbox => true
  | .zeroize => true
  | .wr _ _ => true
  | .rd _ => true

/-- R90: the RSV field, bits 7 to 3, is zero. -/
def cmdReservedZero (v : Byte) : Bool := v >>> (3 : Nat) == 0

/-- R92: OP, bits 2 to 0, is one of the six commands. -/
def cmdOpAssigned (v : Byte) : Bool := decide ((v &&& 0x07).toNat ≤ 5)

/-- R95: TYPE, bits 31 to 24, is 0x57 or 0x52. -/
def htwTypeKnown (w : Htw) : Bool := w >>> (24 : Nat) == 0x57 || w >>> (24 : Nat) == 0x52

/-- R95: bits 23 to 16 are zero. -/
def htwZeroField (w : Htw) : Bool := w &&& 0x00FF0000 == 0

/-- R95: DATA, bits 7 to 0, is zero when TYPE says read. -/
def htwReadDataZero (w : Htw) : Bool := !(w >>> (24 : Nat) == 0x52) || w &&& 0x000000FF == 0

/-- The codes that stand for an instruction of the table. -/
def Code.wf : Code → Bool
  | .cmd8 v => cmdReservedZero v && cmdOpAssigned v
  | .htw w => htwTypeKnown w && htwZeroField w && htwReadDataZero w

end Sys2Proof
end

