-- ==== Sys2Proof/Decode.lean ====
section
/-! DEFINITION. The decoder, total on every code and rejecting by name, and after it the encoder. -/

namespace Sys2Proof

/-- The seven outcomes of Decode(v) (`30_encoding.md` R94). -/
inductive Command where
  | nop
  | keysched
  | encrypt
  | decrypt
  | sbox
  | zeroize
  | illegal
  deriving DecidableEq, Repr

/-- Why a code is no instruction of the table. -/
inductive DecodeError where
  /-- A CMD byte in 0x06 to 0xFF (`30_encoding.md` R93). The core runs it as the illegal-command rule (R233). -/
  | illegalCommand
  /-- TYPE is neither 0x57 nor 0x52 (R95): not a transaction. -/
  | unknownType
  /-- Bits 23 to 16 are not zero (R95): not a transaction. -/
  | nonzeroField
  /-- DATA of a read is not zero (R95): not a transaction. -/
  | nonzeroReadData
  deriving DecidableEq, Repr

/-- Decode(v) of R94: RSV is v[7:3], OP is v[2:0]. -/
def decodeCommand (v : Byte) : Command :=
  if v.extractLsb' 3 5 ≠ 0 then .illegal
  else match (v.extractLsb' 0 3).toNat with
    | 0 => .nop
    | 1 => .keysched
    | 2 => .encrypt
    | 3 => .decrypt
    | 4 => .sbox
    | 5 => .zeroize
    | _ => .illegal

/-- The table's instruction for a decoded CMD byte. -/
def Command.toInstr : Command → Except DecodeError Instr
  | .nop => .ok .nop
  | .keysched => .ok .keysched
  | .encrypt => .ok .encrypt
  | .decrypt => .ok .decrypt
  | .sbox => .ok .sbox
  | .zeroize => .ok .zeroize
  | .illegal => .error .illegalCommand

/-- The TYPE field of an HTW (R95). -/
def htwType (w : Htw) : Byte := w.extractLsb' 24 8
/-- The field of an HTW that must be zero (R95). -/
def htwZero (w : Htw) : Byte := w.extractLsb' 16 8
/-- The ADDR field of an HTW (R95). -/
def htwAddr (w : Htw) : Byte := w.extractLsb' 8 8
/-- The DATA field of an HTW (R95). -/
def htwData (w : Htw) : Byte := w.extractLsb' 0 8

/-- The transaction a host transaction word stands for (R95). -/
def decodeHtw (w : Htw) : Except DecodeError Instr :=
  if htwType w = 0x57 then
    if htwZero w = 0 then .ok (.wr (htwAddr w) (htwData w)) else .error .nonzeroField
  else if htwType w = 0x52 then
    if htwZero w = 0 then
      if htwData w = 0 then .ok (.rd (htwAddr w)) else .error .nonzeroReadData
    else .error .nonzeroField
  else .error .unknownType

/-- The instruction a code stands for. -/
def decode : Code → Except DecodeError Instr
  | .cmd8 v => (decodeCommand v).toInstr
  | .htw w => decodeHtw w

/-- The code of an instruction: a command's CMD byte (R92), an access's HTW (R95). -/
def encode : Instr → Code
  | .nop => .cmd8 0x00
  | .keysched => .cmd8 0x01
  | .encrypt => .cmd8 0x02
  | .decrypt => .cmd8 0x03
  | .sbox => .cmd8 0x04
  | .zeroize => .cmd8 0x05
  | .wr addr data => .htw (0x57#8 ++ 0x00#8 ++ addr ++ data)
  | .rd addr => .htw (0x52#8 ++ 0x00#8 ++ addr ++ 0x00#8)

/-- The code whose bits are w, by the width the table gives the row: 8 bits for a CMD8 row, else an HTW. -/
def codeOfTableWord (nbits w : Nat) : Code :=
  if nbits ≤ 8 then .cmd8 (BitVec.ofNat 8 w) else .htw (BitVec.ofNat 32 w)

/-- The instruction the decoder reads from a table row's bits. -/
def decodeTableWord (nbits w : Nat) : Option Instr :=
  match decode (codeOfTableWord nbits w) with
  | .ok i => some i
  | .error _ => none

end Sys2Proof
end

