-- ==== Sys2Proof/Config.lean ====
section
/-! DEFINITION. The fixed sizes of the core (`00_scope.md` R7, R10). The spec leaves no parameter and no value open
(`92_eei_decisions.md`: "No point is left OPEN: every gap is decided, so a model needs no free parameter"), so there is no
free value here. The constants a test could show wrong (register map, key-length bounds, rotations, schedule, PI) stand with
the operations that use them under `Machine/`. -/

namespace Sys2Proof

/-- The key input buffer: KEY[0..127] (`10_state.md` R24). -/
abbrev KeyBuffer := Vector Byte 128

/-- A block: exactly 8 bytes (`00_scope.md` R7). -/
abbrev Block := Vector Byte 8

/-- The subkey table: exactly 64 words (`10_state.md` R22). -/
abbrev SubkeyTable := Vector Word 64

/-- The key-expansion working buffer: L[0..127] (`10_state.md` R35). -/
abbrev WorkBuffer := Vector Byte 128

/-- The four block words R[0..3] (`10_state.md` R33). -/
abbrev BlockWords := Vector Word 4

end Sys2Proof
end

