-- ==== Sys2Proof/Machine/State.lean ====
section
/-! DEFINITION. The core's persistent state (`10_state.md` R20 to R29), the host's side of the port, the reasons a step stops,
and the state after reset (`70_reset_and_hazards.md` R280). -/

namespace Sys2Proof.Machine

/-- The outcome of the last command other than NOP (`10_state.md` R28; its 2-bit codes stand in `Flags.lean`). -/
inductive Ecode where
  | none
  | keySize
  | noKey
  | badCmd
  deriving DecidableEq, Repr

/-- What reaches the core from outside, one at a time (`20_memory.md` R70): a host access in one of the table's two forms, or
the reset input, "an event between host accesses" (`70_reset_and_hazards.md` R280). -/
inductive HostEvent where
  | access (c : Code)
  | reset
  deriving DecidableEq, Repr

/-- The eight persistent elements of R20, and two fields of the model's own (log 1, log 2) for the host's side of the port:
what the host issues next, and what its reads have returned. PI and BLKSIZE are constants (R21, R30); STATUS and CMD have no
storage (R31, R32); L, R and j are local to one command (R33 to R35). -/
structure State where
  /-- KEY[0..127], the key input buffer (R24). -/
  key : KeyBuffer
  /-- KLEN, the key length for the next KEYSCHED (R25). -/
  klen : Byte
  /-- DIN[0..7], the input block (R26). -/
  din : Block
  /-- DOUT[0..7], the output block (R27). -/
  dout : Block
  /-- K[0..63], the subkey table (R22). -/
  k : SubkeyTable
  /-- KVALID: K holds the table of a successful key schedule (R23). -/
  kvalid : Bool
  /-- ECODE (R28). -/
  ecode : Ecode
  /-- ERRLEN, the key length of the last KEYSIZE error (R29). -/
  errlen : Byte
  /-- The model's own (log 1): the events the outside issues, the next one first. -/
  pending : List HostEvent
  /-- The model's own (log 2): the values the host's reads have returned, the latest first. -/
  readLog : List Byte
  deriving DecidableEq, Repr

/-- No fault exists: an error is an ECODE outcome after which the machine goes on (`60_exceptions.md` R250), and bus accesses
never fault (`20_memory.md` R62 to R64). Nothing raises one, which is what the spec says. -/
inductive Fault where
  deriving DecidableEq, Repr

/-- Why a step has no meaning. -/
inductive Refusal where
  /-- Raised by an arm of `exec` whose instruction has no meaning yet; no arm is left so. Safe. -/
  | notModelled (mnemonic : String)
  /-- Raised by `runAccess` on an HTW whose TYPE is neither 0x57 nor 0x52: R95 "not a transaction, and a model refuses it". Safe. -/
  | unknownType
  /-- Raised by `runAccess` on an HTW whose bits 23 to 16 are not zero (R95 "refused"). Safe. -/
  | nonzeroField
  /-- Raised by `runAccess` on a read's HTW whose DATA is not zero (R95 "refused"). Safe. -/
  | nonzeroReadData
  deriving DecidableEq, Repr

/-- The machine right after reset (R280; "No value is left unspecified"). Nothing is pending and no read has been made. -/
def State.reset : State where
  key := Vector.replicate 128 0
  klen := 0
  din := Vector.replicate 8 0
  dout := Vector.replicate 8 0
  k := Vector.replicate 64 0
  kvalid := false
  ecode := .none
  errlen := 0
  pending := []
  readLog := []

end Sys2Proof.Machine
end

