-- ==== Sys2Proof/Machine/Ops.lean ====
section
/-! DEFINITION. The named updates of State that the commands and accesses share, raising an error, reset, and the byte, word and
array helpers. -/

namespace Sys2Proof.Machine

/-! ### Errors and completion -/

/-- `raise E` (`60_exceptions.md` R252): ECODE takes E's code and nothing else changes. There is no trap entry and no return
(R256, R257): the machine goes on with the next host access. -/
def raiseError (e : Ecode) (s : State) : State := { s with ecode := e }

/-- A command's successful end: ECODE <- NONE. -/
def succeed (s : State) : State := { s with ecode := .none }

/-- ERRLEN <- KLEN, which KEYSCHED does just before raising KEYSIZE (`41_key_schedule.md` R150). -/
def recordKeyLength (s : State) : State := { s with errlen := s.klen }

/-! ### Register writes -/

/-- KEY[0..127] <- 0x00 (`10_state.md` R24). -/
def clearKey (s : State) : State := { s with key := Vector.replicate 128 0 }

/-- KVALID <- 0 and K <- 64 zero words: no cipher instance is left (`10_state.md` R22, R23). -/
def destroyInstance (s : State) : State := { s with k := Vector.replicate 64 0, kvalid := false }

/-- K <- t and KVALID <- 1 (`41_key_schedule.md` R150). -/
def installTable (t : SubkeyTable) (s : State) : State := { s with k := t, kvalid := true }

/-- DOUT[0..7] <- b. -/
def setDout (b : Block) (s : State) : State := { s with dout := b }

/-- KEY[i] <- v. -/
def setKeyByte (i : Fin 128) (v : Byte) (s : State) : State := { s with key := s.key.set i v }

/-- KLEN <- v. -/
def setKlen (v : Byte) (s : State) : State := { s with klen := v }

/-- DIN[i] <- v. -/
def setDinByte (i : Fin 8) (v : Byte) (s : State) : State := { s with din := s.din.set i v }

/-- A read returns v to the host and changes nothing of the core (`20_memory.md` R63). -/
def respond (v : Byte) (s : State) : State := { s with readLog := v :: s.readLog }

/-- The reset input (`70_reset_and_hazards.md` R280): every persistent element takes its reset value. What the host has read
and what it issues next are the host's and stay. -/
def resetCore (s : State) : State := { State.reset with pending := s.pending, readLog := s.readLog }

/-! ### Bytes, words and loops -/

/-- The word whose low byte is lo and high byte hi (`20_memory.md` R67, R68). -/
def wordOfBytes (lo hi : Byte) : Word := lo.setWidth 16 + 256 * hi.setWidth 16

/-- x[7:0]. -/
def lowByte (x : Word) : Byte := x.extractLsb' 0 8

/-- x[15:8]. -/
def highByte (x : Word) : Byte := x.extractLsb' 8 8

/-- `repeat n: f`. -/
def repeatTimes {α : Type} (f : α → α) : Nat → α → α
  | 0, x => x
  | n + 1, x => repeatTimes f n (f x)

/-- K[j] for the u6 cursor j (`10_state.md` R34): always in range. -/
def subkey (k : SubkeyTable) (j : Cursor) : Word := k[j.toNat]'j.isLt

/-- L[i]. On the domain of KS every index the rules form is in 0..127 (`41_key_schedule.md` R143 to R146), where the reduction
modulo 128 does nothing. -/
def bufGet (L : WorkBuffer) (i : Nat) : Byte := L[i % 128]'(Nat.mod_lt _ (by decide))

/-- L[i] <- v, with the index as in `bufGet`. -/
def bufSet (L : WorkBuffer) (i : Nat) (v : Byte) : WorkBuffer := L.set (i % 128) v (Nat.mod_lt _ (by decide))

end Sys2Proof.Machine
end

