-- ==== Sys2Proof/Machine/Control.lean ====
section
/-! DEFINITION. The control commands NOP and ZEROIZE and the illegal-command rule (`44_control.md` R231 to R233). -/

namespace Sys2Proof.Machine

/-- The NOP command's effect (R231): nothing, not even on ECODE. -/
def runNop (s : State) : State := s

/-- NOP (R231). -/
def execNop (s : State) : Host.Outcome State Fault Refusal := .next (runNop s)

/-- The ZEROIZE command's effect (R232): every register is cleared, one by one as the rule lists them. -/
def runZeroize (s : State) : State :=
  { s with
    key := Vector.replicate 128 0
    klen := 0
    din := Vector.replicate 8 0
    dout := Vector.replicate 8 0
    k := Vector.replicate 64 0
    kvalid := false
    errlen := 0
    ecode := .none }

/-- ZEROIZE (R232). -/
def execZeroize (s : State) : Host.Outcome State Fault Refusal := .next (runZeroize s)

/-- The illegal-command rule (R233): BADCMD, and nothing else changes. -/
def runIllegal (s : State) : State := raiseError .badCmd s

end Sys2Proof.Machine
end

