-- ==== Sys2Proof/Machine/Flags.lean ====
section
/-! DEFINITION. The only flags: the fields of the STATUS view (`10_state.md` R31, R37). -/

namespace Sys2Proof.Machine

/-- The 2-bit code of ECODE (`10_state.md` R28, `60_exceptions.md` R251). -/
def Ecode.code : Ecode → BitVec 2
  | .none => 0
  | .keySize => 1
  | .noKey => 2
  | .badCmd => 3

/-- STATUS.ERR (`60_exceptions.md` R253): ECODE is not NONE. -/
def errFlag (s : State) : Bool := s.ecode.code != 0

/-- STATUS = KVALID + 2 × ERR + 4 × ECODE (`10_state.md` R31). -/
def statusByte (s : State) : Byte :=
  (if s.kvalid then 1 else 0) + 2 * (if errFlag s then 1 else 0) + 4 * s.ecode.code.setWidth 8

end Sys2Proof.Machine
end

