-- ==== Sys2Proof/Machine/Operands.lean ====
section
/-! DEFINITION. Where operands come from: the host register map (`20_memory.md` R61), the implicit operands of the commands
(`30_encoding.md` R91) and the byte order of a block (`20_memory.md` R67). -/

namespace Sys2Proof.Machine

/-- What stands at a host address (`20_memory.md` R61). -/
inductive HostReg where
  | key (i : Fin 128)
  | klen
  | cmd
  | status
  | errlen
  | blksize
  | din (i : Fin 8)
  | dout (i : Fin 8)
  | reserved
  deriving DecidableEq, Repr

/-- The register map (`20_memory.md` R61): every u8 address has exactly one entry. -/
def hostReg (a : Byte) : HostReg :=
  if h : a.toNat ≤ 0x7F then .key ⟨a.toNat, by omega⟩
  else if a = 0x80 then .klen
  else if a = 0x81 then .cmd
  else if a = 0x82 then .status
  else if a = 0x83 then .errlen
  else if a = 0x84 then .blksize
  else if h : 0x88 ≤ a.toNat ∧ a.toNat ≤ 0x8F then .din ⟨a.toNat - 0x88, by omega⟩
  else if h : 0x90 ≤ a.toNat ∧ a.toNat ≤ 0x97 then .dout ⟨a.toNat - 0x90, by omega⟩
  else .reserved

/-- BLKSIZE, a constant (`10_state.md` R30). -/
def blkSize : Byte := 0x08

/-- KEY[0..T-1] for T = KLEN, the key KEYSCHED reads (`41_key_schedule.md` R150). -/
def keyBytes (s : State) : List Byte := s.key.toList.take s.klen.toNat

/-- A key length KEYSCHED accepts (`00_scope.md` R8): 8 ≤ T ≤ 128. -/
def keyLengthOk (t : Byte) : Bool := decide (8 ≤ t.toNat ∧ t.toNat ≤ 128)

/-- Unpack (`20_memory.md` R67): a block as four little-endian words. -/
def unpackBlock (b : Block) : BlockWords :=
  #v[wordOfBytes b[0] b[1], wordOfBytes b[2] b[3], wordOfBytes b[4] b[5], wordOfBytes b[6] b[7]]

/-- Pack (`20_memory.md` R67): four words as a block, little-endian per word. -/
def packBlock (r : BlockWords) : Block :=
  #v[lowByte r[0], highByte r[0], lowByte r[1], highByte r[1],
    lowByte r[2], highByte r[2], lowByte r[3], highByte r[3]]

end Sys2Proof.Machine
end

