-- ==== Sys2Proof/Machine/Encrypt.lean ====
section
/-! DEFINITION. The block encryptor: rotation, MIX, MASH, ENC and the ENCRYPT command (`42_encrypt.md` R170 to R175). -/

namespace Sys2Proof.Machine

/-- The datapath of one block command: the words R[0..3] and the subkey cursor j (`10_state.md` R33, R34). Transient. -/
structure Datapath where
  r : BlockWords
  j : Cursor
  deriving DecidableEq, Repr

/-- rotl16 (R170). -/
def rotl16 (x : Word) (n : Nat) : Word := (x <<< n) ||| (x >>> (16 - n))

/-- s[0..3] (R171). -/
def rotAmount : Fin 4 → Nat
  | 0 => 1
  | 1 => 2
  | 2 => 3
  | 3 => 5

/-- What MIX adds to R[i] and RMIX takes off it (R172, R201); the indices are modulo 4 by their type. -/
def mixTerm (k : SubkeyTable) (d : Datapath) (i : Fin 4) : Word :=
  subkey k d.j + (d.r[i + 3] &&& d.r[i + 2]) + (~~~d.r[i + 3] &&& d.r[i + 1])

/-- One word's update in MIX, in place, with j moved on (R172). -/
def mixWord (k : SubkeyTable) (d : Datapath) (i : Fin 4) : Datapath where
  r := d.r.set i (rotl16 (d.r[i] + mixTerm k d i) (rotAmount i))
  j := d.j + 1

/-- MIX (R172): for i = 0 to 3. -/
def mix (k : SubkeyTable) (d : Datapath) : Datapath := [0, 1, 2, 3].foldl (mixWord k) d

/-- The subkey a word selects in MASH and RMASH (R173): K[x AND 63]. -/
def mashKey (k : SubkeyTable) (x : Word) : Word := subkey k ((x &&& 63).setWidth 6)

/-- One word's update in MASH, in place (R173). -/
def mashWord (k : SubkeyTable) (r : BlockWords) (i : Fin 4) : BlockWords :=
  r.set i (r[i] + mashKey k r[i + 3])

/-- MASH (R173): for i = 0 to 3, j unchanged. -/
def mash (k : SubkeyTable) (d : Datapath) : Datapath := { d with r := [0, 1, 2, 3].foldl (mashWord k) d.r }

/-- The 5/1/6/1/5 schedule of rounds (R174) on the datapath. -/
def encRounds (k : SubkeyTable) (d : Datapath) : Datapath :=
  repeatTimes (mix k) 5 (mash k (repeatTimes (mix k) 6 (mash k (repeatTimes (mix k) 5 d))))

/-- ENC(K, B) (R174). -/
def enc (k : SubkeyTable) (b : Block) : Block := packBlock (encRounds k ⟨unpackBlock b, 0⟩).r

/-- The ENCRYPT command's effect (R175). -/
def runEncrypt (s : State) : State :=
  if s.kvalid then succeed (setDout (enc s.k s.din) s) else raiseError .noKey s

/-- ENCRYPT (R175). -/
def execEncrypt (s : State) : Host.Outcome State Fault Refusal := .next (runEncrypt s)

end Sys2Proof.Machine
end

