-- ==== Sys2Proof/Machine/Decrypt.lean ====
section
/-! DEFINITION. The block decryptor: rotation, RMIX, RMASH, DEC and the DECRYPT command (`43_decrypt.md` R200 to R204). -/

namespace Sys2Proof.Machine

/-- rotr16 (R200). -/
def rotr16 (x : Word) (n : Nat) : Word := (x >>> n) ||| (x <<< (16 - n))

/-- One word's update in RMIX, in place, with j moved back (R201): rotate right, then subtract. -/
def rmixWord (k : SubkeyTable) (d : Datapath) (i : Fin 4) : Datapath where
  r := d.r.set i (rotr16 d.r[i] (rotAmount i) - subkey k d.j
        - (d.r[i + 3] &&& d.r[i + 2]) - (~~~d.r[i + 3] &&& d.r[i + 1]))
  j := d.j - 1

/-- RMIX (R201): for i = 3 downto 0. -/
def rmix (k : SubkeyTable) (d : Datapath) : Datapath := [3, 2, 1, 0].foldl (rmixWord k) d

/-- One word's update in RMASH, in place (R202). -/
def rmashWord (k : SubkeyTable) (r : BlockWords) (i : Fin 4) : BlockWords :=
  r.set i (r[i] - mashKey k r[i + 3])

/-- RMASH (R202): for i = 3 downto 0, j unchanged. -/
def rmash (k : SubkeyTable) (d : Datapath) : Datapath := { d with r := [3, 2, 1, 0].foldl (rmashWord k) d.r }

/-- The 5/1/6/1/5 schedule of inverse rounds (R203) on the datapath. -/
def decRounds (k : SubkeyTable) (d : Datapath) : Datapath :=
  repeatTimes (rmix k) 5 (rmash k (repeatTimes (rmix k) 6 (rmash k (repeatTimes (rmix k) 5 d))))

/-- DEC(K, B) (R203). -/
def dec (k : SubkeyTable) (b : Block) : Block := packBlock (decRounds k ⟨unpackBlock b, 63⟩).r

/-- The DECRYPT command's effect (R204). -/
def runDecrypt (s : State) : State :=
  if s.kvalid then succeed (setDout (dec s.k s.din) s) else raiseError .noKey s

/-- DECRYPT (R204). -/
def execDecrypt (s : State) : Host.Outcome State Fault Refusal := .next (runDecrypt s)

end Sys2Proof.Machine
end

