-- ==== Sys2Proof/Machine/Sbox.lean ====
section
/-! DEFINITION. The permutation S-box: the table PI (`40_sbox.md` R120, taken letter for letter; log 4), the lookup (R121) and
the SBOX command (R123). -/

namespace Sys2Proof.Machine

/-- PI[0x00..0x0F] (R120). -/
def piRow0 : Vector Byte 16 :=
  #v[0xD9, 0x78, 0xF9, 0xC4, 0x19, 0xDD, 0xB5, 0xED, 0x28, 0xE9, 0xFD, 0x79, 0x4A, 0xA0, 0xD8, 0x9D]
/-- PI[0x10..0x1F] (R120). -/
def piRow1 : Vector Byte 16 :=
  #v[0xC6, 0x7E, 0x37, 0x83, 0x2B, 0x76, 0x53, 0x8E, 0x62, 0x4C, 0x64, 0x88, 0x44, 0x8B, 0xFB, 0xA2]
/-- PI[0x20..0x2F] (R120). -/
def piRow2 : Vector Byte 16 :=
  #v[0x17, 0x9A, 0x59, 0xF5, 0x87, 0xB3, 0x4F, 0x13, 0x61, 0x45, 0x6D, 0x8D, 0x09, 0x81, 0x7D, 0x32]
/-- PI[0x30..0x3F] (R120). -/
def piRow3 : Vector Byte 16 :=
  #v[0xBD, 0x8F, 0x40, 0xEB, 0x86, 0xB7, 0x7B, 0x0B, 0xF0, 0x95, 0x21, 0x22, 0x5C, 0x6B, 0x4E, 0x82]
/-- PI[0x40..0x4F] (R120). -/
def piRow4 : Vector Byte 16 :=
  #v[0x54, 0xD6, 0x65, 0x93, 0xCE, 0x60, 0xB2, 0x1C, 0x73, 0x56, 0xC0, 0x14, 0xA7, 0x8C, 0xF1, 0xDC]
/-- PI[0x50..0x5F] (R120). -/
def piRow5 : Vector Byte 16 :=
  #v[0x12, 0x75, 0xCA, 0x1F, 0x3B, 0xBE, 0xE4, 0xD1, 0x42, 0x3D, 0xD4, 0x30, 0xA3, 0x3C, 0xB6, 0x26]
/-- PI[0x60..0x6F] (R120). -/
def piRow6 : Vector Byte 16 :=
  #v[0x6F, 0xBF, 0x0E, 0xDA, 0x46, 0x69, 0x07, 0x57, 0x27, 0xF2, 0x1D, 0x9B, 0xBC, 0x94, 0x43, 0x03]
/-- PI[0x70..0x7F] (R120). -/
def piRow7 : Vector Byte 16 :=
  #v[0xF8, 0x11, 0xC7, 0xF6, 0x90, 0xEF, 0x3E, 0xE7, 0x06, 0xC3, 0xD5, 0x2F, 0xC8, 0x66, 0x1E, 0xD7]
/-- PI[0x80..0x8F] (R120). -/
def piRow8 : Vector Byte 16 :=
  #v[0x08, 0xE8, 0xEA, 0xDE, 0x80, 0x52, 0xEE, 0xF7, 0x84, 0xAA, 0x72, 0xAC, 0x35, 0x4D, 0x6A, 0x2A]
/-- PI[0x90..0x9F] (R120). -/
def piRow9 : Vector Byte 16 :=
  #v[0x96, 0x1A, 0xD2, 0x71, 0x5A, 0x15, 0x49, 0x74, 0x4B, 0x9F, 0xD0, 0x5E, 0x04, 0x18, 0xA4, 0xEC]
/-- PI[0xA0..0xAF] (R120). -/
def piRowA : Vector Byte 16 :=
  #v[0xC2, 0xE0, 0x41, 0x6E, 0x0F, 0x51, 0xCB, 0xCC, 0x24, 0x91, 0xAF, 0x50, 0xA1, 0xF4, 0x70, 0x39]
/-- PI[0xB0..0xBF] (R120). -/
def piRowB : Vector Byte 16 :=
  #v[0x99, 0x7C, 0x3A, 0x85, 0x23, 0xB8, 0xB4, 0x7A, 0xFC, 0x02, 0x36, 0x5B, 0x25, 0x55, 0x97, 0x31]
/-- PI[0xC0..0xCF] (R120). -/
def piRowC : Vector Byte 16 :=
  #v[0x2D, 0x5D, 0xFA, 0x98, 0xE3, 0x8A, 0x92, 0xAE, 0x05, 0xDF, 0x29, 0x10, 0x67, 0x6C, 0xBA, 0xC9]
/-- PI[0xD0..0xDF] (R120). -/
def piRowD : Vector Byte 16 :=
  #v[0xD3, 0x00, 0xE6, 0xCF, 0xE1, 0x9E, 0xA8, 0x2C, 0x63, 0x16, 0x01, 0x3F, 0x58, 0xE2, 0x89, 0xA9]
/-- PI[0xE0..0xEF] (R120). -/
def piRowE : Vector Byte 16 :=
  #v[0x0D, 0x38, 0x34, 0x1B, 0xAB, 0x33, 0xFF, 0xB0, 0xBB, 0x48, 0x0C, 0x5F, 0xB9, 0xB1, 0xCD, 0x2E]
/-- PI[0xF0..0xFF] (R120). -/
def piRowF : Vector Byte 16 :=
  #v[0xC5, 0xF3, 0xDB, 0x47, 0xE5, 0xA5, 0x9C, 0x77, 0x0A, 0xA6, 0x20, 0x68, 0xFE, 0x7F, 0xC1, 0xAD]

/-- The 16 rows of PI (R120). -/
def piRows : Vector (Vector Byte 16) 16 :=
  #v[piRow0, piRow1, piRow2, piRow3, piRow4, piRow5, piRow6, piRow7,
    piRow8, piRow9, piRowA, piRowB, piRowC, piRowD, piRowE, piRowF]

/-- PI[v] (R121), for v = 16 × row + column (R120): total, since row and column are hex digits. -/
def pi (v : Byte) : Byte := piRows[v.toNat / 16][v.toNat % 16]

/-- The SBOX command's effect (R123). -/
def runSbox (s : State) : State :=
  succeed (setDout #v[pi s.din[0], 0, 0, 0, 0, 0, 0, 0] s)

/-- SBOX (R123). -/
def execSbox (s : State) : Host.Outcome State Fault Refusal := .next (runSbox s)

end Sys2Proof.Machine
end

