-- ==== Sys2Proof/Machine/KeySchedule.lean ====
section
/-! DEFINITION. The key-schedule function KS, step by step (`41_key_schedule.md` R140 to R146), and the KEYSCHED command (R150). -/

namespace Sys2Proof.Machine

/-- T8 = ceil(T1 / 8) (R141). -/
def effectiveBytes (t1 : Nat) : Nat := (t1 + 7) / 8

/-- TM (R141): the mask of the low T1 mod 8 bits, or of all 8 when T1 mod 8 is 0. -/
def truncMask (t1 : Nat) : Byte := if t1 % 8 = 0 then 0xFF else BitVec.ofNat 8 (2 ^ (t1 % 8) - 1)

/-- LOAD (R142): L[i] <- key[i] for i = 0 to T-1. -/
def ksLoad (key : List Byte) (L : WorkBuffer) : WorkBuffer :=
  key.zipIdx.foldl (fun L p => bufSet L p.2 p.1) L

/-- One step of FWD (R143). -/
def ksFwdStep (t : Nat) (L : WorkBuffer) (i : Nat) : WorkBuffer :=
  bufSet L i (pi (bufGet L (i - 1) + bufGet L (i - t)))

/-- FWD (R143): for i = T to 127. -/
def ksFwd (t : Nat) (L : WorkBuffer) : WorkBuffer := (List.range' t (128 - t)).foldl (ksFwdStep t) L

/-- TRUNC (R144). -/
def ksTrunc (t8 : Nat) (tm : Byte) (L : WorkBuffer) : WorkBuffer :=
  bufSet L (128 - t8) (pi (bufGet L (128 - t8) &&& tm))

/-- One step of BWD (R145). -/
def ksBwdStep (t8 : Nat) (L : WorkBuffer) (i : Nat) : WorkBuffer :=
  bufSet L i (pi (bufGet L (i + 1) ^^^ bufGet L (i + t8)))

/-- BWD (R145): for i = 127 - T8 downto 0. -/
def ksBwd (t8 : Nat) (L : WorkBuffer) : WorkBuffer := (List.range (128 - t8)).reverse.foldl (ksBwdStep t8) L

/-- PACK (R146): K[i] is the little-endian word of L[2i] and L[2i+1]. -/
def ksPack (L : WorkBuffer) : SubkeyTable :=
  Vector.ofFn fun i => wordOfBytes (bufGet L (2 * i)) (bufGet L (2 * i + 1))

/-- LOAD, FWD, TRUNC and BWD in order (R140), on a buffer that starts as `fill`. -/
def expandKey (fill : WorkBuffer) (key : List Byte) (t1 : Nat) : WorkBuffer :=
  ksBwd (effectiveBytes t1) (ksTrunc (effectiveBytes t1) (truncMask t1) (ksFwd key.length (ksLoad key fill)))

/-- The table KS computes. L starts as zeros, a value the result does not depend on (R142). -/
def ksTable (key : List Byte) (t1 : Nat) : SubkeyTable := ksPack (expandKey (Vector.replicate 128 0) key t1)

/-- KS(key, T1) with its domain (R140): 8 ≤ T ≤ 128 and 1 ≤ T1 ≤ 1024, and no result outside it
(`93_implementation_defined.md` U4, U5). -/
def ks (key : List Byte) (t1 : Nat) : Option SubkeyTable :=
  if 8 ≤ key.length ∧ key.length ≤ 128 ∧ 1 ≤ t1 ∧ t1 ≤ 1024 then some (ksTable key t1) else none

/-- The KEYSCHED command's effect (R150): the core always calls KS with T1 = 8 × T. -/
def runKeysched (s : State) : State :=
  if keyLengthOk s.klen then
    succeed (clearKey (installTable (ksTable (keyBytes s) (8 * s.klen.toNat)) s))
  else
    raiseError .keySize (recordKeyLength (clearKey (destroyInstance s)))

/-- KEYSCHED (R150). -/
def execKeysched (s : State) : Host.Outcome State Fault Refusal := .next (runKeysched s)

end Sys2Proof.Machine
end

