-- ==== Sys2Proof/Machine/HostBus.lean ====
section
/-! DEFINITION. The host accesses: command dispatch (`44_control.md` R230), MemWrite and MemRead (`20_memory.md` R62, R63), and
the instructions WR and RD. -/

namespace Sys2Proof.Machine

/-- Execute(v) (R230): exactly one command rule runs, to completion. -/
def execute (v : Byte) (s : State) : State :=
  match decodeCommand v with
  | .nop => runNop s
  | .keysched => runKeysched s
  | .encrypt => runEncrypt s
  | .decrypt => runDecrypt s
  | .sbox => runSbox s
  | .zeroize => runZeroize s
  | .illegal => runIllegal s

/-- MemWrite(addr, 1, v) (R62): writes to read-only and reserved addresses are ignored (R64). -/
def memWrite (a v : Byte) (s : State) : State :=
  match hostReg a with
  | .key i => setKeyByte i v s
  | .klen => setKlen v s
  | .cmd => execute v s
  | .status => s
  | .errlen => s
  | .blksize => s
  | .din i => setDinByte i v s
  | .dout _ => s
  | .reserved => s

/-- MemRead(addr, 1) (R63): write-only and reserved addresses return 0x00 (R64). -/
def memRead (a : Byte) (s : State) : Byte :=
  match hostReg a with
  | .key _ => 0x00
  | .klen => s.klen
  | .cmd => 0x00
  | .status => statusByte s
  | .errlen => s.errlen
  | .blksize => blkSize
  | .din i => s.din[i]
  | .dout i => s.dout[i]
  | .reserved => 0x00

/-- WR (R62): a write returns nothing. -/
def execWr (addr data : Byte) (s : State) : Host.Outcome State Fault Refusal := .next (memWrite addr data s)

/-- RD (R63): the value read goes to the host. -/
def execRd (addr : Byte) (s : State) : Host.Outcome State Fault Refusal := .next (respond (memRead addr s) s)

end Sys2Proof.Machine
end

