-- ==== Sys2Proof/Machine/HostPort.lean ====
section
/-! DEFINITION. What one event of the host port does: a host access in either code form, or the reset input. -/

namespace Sys2Proof.Machine

/-- What a code that is no instruction does. An illegal CMD byte runs the illegal-command rule (`44_control.md` R233); an HTW
that is not a transaction is refused by name (`30_encoding.md` R95). -/
def runUndecoded (e : DecodeError) (s : State) : Host.Outcome State Fault Refusal :=
  match e with
  | .illegalCommand => .next (runIllegal s)
  | .unknownType => .refused .unknownType
  | .nonzeroField => .refused .nonzeroField
  | .nonzeroReadData => .refused .nonzeroReadData

/-- A host access: the decoded instruction runs. -/
def runAccess (c : Code) (s : State) : Host.Outcome State Fault Refusal :=
  match decode c with
  | .ok i => exec i s
  | .error e => runUndecoded e s

/-- One event from outside. -/
def runEvent (e : HostEvent) (s : State) : Host.Outcome State Fault Refusal :=
  match e with
  | .access c => runAccess c s
  | .reset => .next (resetCore s)

/-- The event the port serves next, and the state with it taken off. With nothing issued the core is idle. -/
def takeEvent (s : State) : Option (HostEvent × State) :=
  match s.pending with
  | [] => none
  | e :: rest => some (e, { s with pending := rest })

/-- The outside issues e before everything it has issued so far. -/
def issueFirst (e : HostEvent) (s : State) : State := { s with pending := e :: s.pending }

end Sys2Proof.Machine
end

