-- ==== Sys2Proof/Machine/Step.lean ====
section
/-! DEFINITION. One step: the port serves the next event the outside has issued (`20_memory.md` R70: one at a time, in order,
each to its full effect). -/

namespace Sys2Proof.Machine

/-- One step. With no event issued the core is idle and nothing changes (log 3). -/
def step (s : State) : Host.Outcome State Fault Refusal :=
  match takeEvent s with
  | some (e, s') => runEvent e s'
  | none => .next s

/-- The instruction with bits w issued as the next host access. The core has no program counter (`10_state.md` R36): its program
is what the host issues. -/
def State.withFetchWord (s : State) (nbits w : Nat) : State := issueFirst (.access (codeOfTableWord nbits w)) s

end Sys2Proof.Machine
end

