-- ==== Sys2Proof/Machine/Pseudo.lean ====
section
/-! DEFINITION. The assembler's pseudo-instructions as sequences of host accesses (`30_encoding.md` R96). Notation only: they add
no behaviour to the core. -/

namespace Sys2Proof.Machine

/-- `nop`, `keysched`, `encrypt`, `decrypt`, `sbox` and `zeroize`: `wr 0x81, v` with v the command's CMD byte (R96). -/
def asmCommand (v : Byte) : List Instr := [.wr 0x81 v]

/-- `setkey b0, ..., b(n-1)`, for n ≤ 128: the key bytes in order, then KLEN. -/
def asmSetkey (bs : List Byte) : List Instr :=
  bs.zipIdx.map (fun p => .wr (BitVec.ofNat 8 p.2) p.1) ++ [.wr 0x80 (BitVec.ofNat 8 bs.length)]

/-- `setblk b0, ..., b7`. -/
def asmSetblk (b : Block) : List Instr :=
  b.toList.zipIdx.map fun p => .wr (BitVec.ofNat 8 (0x88 + p.2)) p.1

/-- `getblk`. -/
def asmGetblk : List Instr := (List.range 8).map fun i => .rd (BitVec.ofNat 8 (0x90 + i))

/-- `rdstatus`. -/
def asmRdstatus : List Instr := [.rd 0x82]

/-- `rderrlen`. -/
def asmRderrlen : List Instr := [.rd 0x83]

/-- A host program as the events it issues, one host transaction word or CMD byte each. -/
def hostEvents (p : List Instr) : List HostEvent := p.map fun i => .access (encode i)

end Sys2Proof.Machine
end

