-- ==== Sys2Proof/Safety.lean ====
section
/-! DEFINITION. The terms claims are stated in: what an event of the host port is, which programs of accesses the core can run,
and the invariant of the cipher instance. -/

namespace Sys2Proof.Machine

/-- The event is the host writing v to CMD, as a CMD8 byte (`30_encoding.md` R90) or as a host transaction word (R95). -/
def RunsCommand (e : HostEvent) (v : Byte) : Prop :=
  e = .access (.cmd8 v) ∨ e = .access (.htw (0x570081#24 ++ v))

/-- The event is the host write of v at address a, as a host transaction word (R95). -/
def HostWrites (e : HostEvent) (a v : Byte) : Prop := e = .access (.htw (0x5700#16 ++ a ++ v))

/-- The event can be served: it is reset, a CMD byte (every one of the 256 runs a command rule, `30_encoding.md` R94), or a
transaction (R95). -/
def HostEvent.served : HostEvent → Bool
  | .reset => true
  | .access (.cmd8 _) => true
  | .access (.htw w) => (Code.htw w).wf

/-- Every event the outside has issued can be served. -/
def State.ready (s : State) : Bool := s.pending.all HostEvent.served

/-- The core's persistent elements (`10_state.md` R20) agree in two states. -/
structure SameCore (s t : State) : Prop where
  key : t.key = s.key
  klen : t.klen = s.klen
  din : t.din = s.din
  dout : t.dout = s.dout
  k : t.k = s.k
  kvalid : t.kvalid = s.kvalid
  ecode : t.ecode = s.ecode
  errlen : t.errlen = s.errlen

/-- The invariant of the cipher instance and of error reports. -/
structure State.Inv (s : State) : Prop where
  /-- With KVALID = 0 no table is kept (`10_state.md` R22, R23). -/
  noInstance : s.kvalid = false → s.k = Vector.replicate 64 0
  /-- With KVALID = 1, K is the table of a successful key schedule with T1 = 8 × T (R23, `00_scope.md` R9). -/
  hasTable : s.kvalid = true → ∃ key : List Byte, ks key (8 * key.length) = some s.k
  /-- A NOKEY report stands only while there is no instance (`60_exceptions.md` R251). -/
  noKeyReport : s.ecode = .noKey → s.kvalid = false
  /-- A KEYSIZE report stands only while there is no instance (`41_key_schedule.md` R150). -/
  keySizeReport : s.ecode = .keySize → s.kvalid = false
  /-- ERRLEN never holds a length KEYSCHED accepts (`10_state.md` R29). -/
  errlenOutside : s.errlen.toNat < 8 ∨ 128 < s.errlen.toNat

/-- The number of an error code (`10_state.md` R28). -/
def Ecode.number : Ecode → Nat
  | .none => 0
  | .keySize => 1
  | .noKey => 2
  | .badCmd => 3

/-- A key length in the range of `00_scope.md` R8. -/
def LegalKeyLength (t : Nat) : Prop := 8 ≤ t ∧ t ≤ 128

/-- The state after KEYSCHED installs the table (`41_key_schedule.md` R150). -/
def State.withInstance (s : State) (table : SubkeyTable) : State :=
  { s with k := table, kvalid := true, key := Vector.replicate 128 0, ecode := .none }

/-- Mixing round n + 1 of ENC on the words alone: its cursor starts at 4n (`42_encrypt.md` R174). -/
def mixRound (k : SubkeyTable) (r : BlockWords) (n : Nat) : BlockWords :=
  (mix k ⟨r, BitVec.ofNat 6 (4 * n)⟩).r

/-- R-mixing round m + 1 of DEC on the words alone: its cursor starts at 63 - 4m (`43_decrypt.md` R203). -/
def rmixRound (k : SubkeyTable) (r : BlockWords) (m : Nat) : BlockWords :=
  (rmix k ⟨r, BitVec.ofNat 6 (63 - 4 * m)⟩).r

/-- The state after a host read that returned v: nothing of the core has changed (`20_memory.md` R63). -/
def State.withRead (s : State) (v : Byte) : State := { s with readLog := v :: s.readLog }

end Sys2Proof.Machine
end

