-- ==== Sys2Proof/Certificates/Slice0/Obligations.lean ====
section
/-! DEFINITION. The statements for the provers, from the numbered rules of `spec/`. -/

open Sys2Proof Sys2Proof.Machine

/-! ### Encoding and the step -/

/-- Decoding the code of an instruction gives it back, for every instruction with every operand (R92, R95). -/
def Obligations.DecodeOfEncode : Prop := ∀ i : Instr, decode (encode i) = .ok i

/-- Each code stands for one instruction: a code that decodes to i is the code of i (R92, R95). -/
def Obligations.EncodeOfDecode : Prop := ∀ (c : Code) (i : Instr), decode c = .ok i → encode i = c

/-- R94, R92: Decode(v) for each of the 256 CMD byte values. -/
def Obligations.CommandByteDecoding : Prop :=
  ∀ v : Byte, decodeCommand v =
    if v = 0x00 then .nop else if v = 0x01 then .keysched else if v = 0x02 then .encrypt
    else if v = 0x03 then .decrypt else if v = 0x04 then .sbox else if v = 0x05 then .zeroize else .illegal

/-- R95: an HTW is a write when TYPE is 0x57 and [23:16] is zero, a read when TYPE is 0x52 and [23:16] and DATA are zero, with
ADDR in [15:8] and DATA in [7:0]; every other word is refused. -/
def Obligations.TransactionWordDecoding : Prop :=
  ∀ w : Htw,
    (w.extractLsb' 24 8 = 0x57 ∧ w.extractLsb' 16 8 = 0x00 →
      decode (.htw w) = .ok (.wr (w.extractLsb' 8 8) (w.extractLsb' 0 8))) ∧
    (w.extractLsb' 24 8 = 0x52 ∧ w.extractLsb' 16 8 = 0x00 ∧ w.extractLsb' 0 8 = 0x00 →
      decode (.htw w) = .ok (.rd (w.extractLsb' 8 8))) ∧
    (¬(w.extractLsb' 24 8 = 0x57 ∧ w.extractLsb' 16 8 = 0x00) →
      ¬(w.extractLsb' 24 8 = 0x52 ∧ w.extractLsb' 16 8 = 0x00 ∧ w.extractLsb' 0 8 = 0x00) →
      ∀ (s : State) (rest : List HostEvent), s.pending = .access (.htw w) :: rest →
        ∃ why : Refusal, step s = .refused why)

/-- The decoder accepts exactly the well-formed codes (R90, R93, R95). -/
def Obligations.DecodesIffWellFormed : Prop := ∀ c : Code, (∃ i : Instr, decode c = .ok i) ↔ c.wf = true

/-- Words written out from the encodings of R92 and R95, one of each row, decode to their instructions. -/
def Obligations.WrittenOutWordsDecode : Prop :=
  decode (.cmd8 0b00000000) = .ok .nop ∧ decode (.cmd8 0b00000001) = .ok .keysched ∧
  decode (.cmd8 0b00000010) = .ok .encrypt ∧ decode (.cmd8 0b00000011) = .ok .decrypt ∧
  decode (.cmd8 0b00000100) = .ok .sbox ∧ decode (.cmd8 0b00000101) = .ok .zeroize ∧
  decode (.htw 0b01010111000000001000000100000010) = .ok (.wr 0x81 0x02) ∧
  decode (.htw 0b01010010000000001000001000000000) = .ok (.rd 0x82)

/-- A step runs the instruction the next access decodes to, with that access taken off (R70); placing a table word as the next
access and stepping is exactly that instruction; with nothing issued the state stays (log 3, the model's choice). -/
def Obligations.StepRunsDecodedInstruction : Prop :=
  (∀ (s : State) (c : Code) (rest : List HostEvent) (i : Instr),
    s.pending = .access c :: rest → decode c = .ok i → step s = exec i { s with pending := rest }) ∧
  (∀ (s : State) (nbits w : Nat) (i : Instr),
    decodeTableWord nbits w = some i → step (s.withFetchWord nbits w) = exec i s) ∧
  (∀ s : State, s.pending = [] → step s = .next s)

/-- A host write of v to CMD runs exactly the command v stands for (R32, R230), whichever code form issues it; the two forms are
the model's reading of R90 (log 1). -/
def Obligations.CmdWriteRunsTheCommand : Prop :=
  (∀ (s : State) (i : Instr) (v : Byte), encode i = .cmd8 v → exec (.wr 0x81 v) s = exec i s) ∧
  (∀ (s : State) (v : Byte) (rest : List HostEvent),
    step { s with pending := .access (.cmd8 v) :: rest } =
      step { s with pending := .access (.htw (0x570081#24 ++ v)) :: rest })

/-! ### The host bus -/

/-- R62: what a host write does at each address. -/
def Obligations.HostWriteEffects : Prop :=
  ∀ (s : State) (v : Byte),
    (∀ i : Fin 128, exec (.wr (BitVec.ofNat 8 i) v) s = .next { s with key := s.key.set i v }) ∧
    exec (.wr 0x80 v) s = .next { s with klen := v } ∧
    exec (.wr 0x81 v) s =
      (if v = 0x00 then exec .nop s else if v = 0x01 then exec .keysched s else if v = 0x02 then exec .encrypt s
       else if v = 0x03 then exec .decrypt s else if v = 0x04 then exec .sbox s else if v = 0x05 then exec .zeroize s
       else .next { s with ecode := .badCmd }) ∧
    (∀ i : Fin 8, exec (.wr (BitVec.ofNat 8 (0x88 + i)) v) s = .next { s with din := s.din.set i v }) ∧
    (∀ a : Byte, (0x82 ≤ a.toNat ∧ a.toNat ≤ 0x87) ∨ 0x90 ≤ a.toNat → exec (.wr a v) s = .next s)

/-- What a host read returns at each address, and that it changes nothing of the core (R63). That the value goes on the read log,
the latest first, is the model's choice (log 2). -/
def Obligations.HostReadValues : Prop :=
  ∀ s : State,
    (∀ a : Byte, a.toNat ≤ 0x7F → exec (.rd a) s = .next (s.withRead 0x00)) ∧
    exec (.rd 0x80) s = .next (s.withRead s.klen) ∧
    exec (.rd 0x81) s = .next (s.withRead 0x00) ∧
    exec (.rd 0x82) s = .next (s.withRead (BitVec.ofNat 8 (s.kvalid.toNat + 2 * (if s.ecode.number ≠ 0 then 1 else 0) + 4 * s.ecode.number))) ∧
    exec (.rd 0x83) s = .next (s.withRead s.errlen) ∧
    exec (.rd 0x84) s = .next (s.withRead 0x08) ∧
    (∀ i : Fin 8, exec (.rd (BitVec.ofNat 8 (0x88 + i))) s = .next (s.withRead s.din[i])) ∧
    (∀ i : Fin 8, exec (.rd (BitVec.ofNat 8 (0x90 + i))) s = .next (s.withRead s.dout[i])) ∧
    (∀ a : Byte, (0x85 ≤ a.toNat ∧ a.toNat ≤ 0x87) ∨ 0x98 ≤ a.toNat →
      exec (.rd a) s = .next (s.withRead 0x00))

/-- The fields of STATUS, bit by bit; writes to it are ignored, reading it changes nothing of the core, and it reads 0x00 at reset
(R31). That the value read goes on the read log is the model's choice (log 2). -/
def Obligations.StatusFields : Prop :=
  (∀ s : State, ∃ v : Byte,
    exec (.rd 0x82) s = .next (s.withRead v) ∧
    v.getLsbD 0 = s.kvalid ∧ (v.getLsbD 1 = true ↔ s.ecode ≠ .none) ∧
    (v.extractLsb' 2 2).toNat = s.ecode.number ∧ v.extractLsb' 4 4 = 0) ∧
  (∀ (s : State) (d : Byte), exec (.wr 0x82 d) s = .next s) ∧
  memRead 0x82 State.reset = 0x00

/-- A write to any address but CMD leaves what every other address reads as (R62), and a write to KLEN or DIN is what that
address then reads as. -/
def Obligations.WriteLeavesOtherAddresses : Prop :=
  ∀ (s : State) (a v : Byte), a ≠ 0x81 →
    ∃ t : State, exec (.wr a v) s = .next t ∧ (∀ b : Byte, b ≠ a → memRead b t = memRead b s) ∧
      (a = 0x80 ∨ (0x88 ≤ a.toNat ∧ a.toNat ≤ 0x8F) → memRead a t = v)

/-- Reads, writes outside CMD, ENCRYPT, DECRYPT and SBOX may be repeated with no further effect on the core (R66). -/
def Obligations.RepeatedAccessesChangeNothing : Prop :=
  (∀ (s : State) (a v : Byte), a ≠ 0x81 → ∃ t : State, exec (.wr a v) s = .next t ∧ exec (.wr a v) t = .next t) ∧
  (∀ (s : State) (a : Byte), ∃ t : State, exec (.rd a) s = .next t ∧ SameCore s t ∧ memRead a t = memRead a s) ∧
  (∀ (s : State) (i : Instr), i = .encrypt ∨ i = .decrypt ∨ i = .sbox →
    ∃ t : State, exec i s = .next t ∧ exec i t = .next t)

/-- R67: Unpack and Pack are little-endian per word, and inverse to each other. -/
def Obligations.BlockByteOrder : Prop :=
  (∀ (b : Block) (i : Fin 4), (unpackBlock b)[i].toNat = b[2 * i.val].toNat + 256 * b[2 * i.val + 1].toNat) ∧
  (∀ (r : BlockWords) (i : Fin 4), (packBlock r)[2 * i.val] = r[i].extractLsb' 0 8 ∧
    (packBlock r)[2 * i.val + 1] = r[i].extractLsb' 8 8) ∧
  (∀ b : Block, packBlock (unpackBlock b) = b) ∧ (∀ r : BlockWords, unpackBlock (packBlock r) = r)

/-! ### The commands -/

/-- R231: NOP changes nothing, and it is the only command that never writes ECODE: every other CMD byte changes it in some
state. -/
def Obligations.NopChangesNothing : Prop :=
  (∀ s : State, exec .nop s = .next s) ∧
  (∀ v : Byte, v ≠ 0x00 → ∃ s t : State, exec (.wr 0x81 v) s = .next t ∧ t.ecode ≠ s.ecode)

/-- R150: KEYSCHED with a legal KLEN installs KS(KEY[0..T-1], 8T) and clears KEY and ECODE; with any other KLEN it destroys the
instance, clears KEY and reports KEYSIZE with the length. STATUS then reads 0x01 or 0x06. A second KEYSCHED with no new key
schedules the zero key. -/
def Obligations.KeyschedEffect : Prop :=
  ∀ s : State,
    (LegalKeyLength s.klen.toNat →
      ∃ table : SubkeyTable, ks (s.key.toList.take s.klen.toNat) (8 * s.klen.toNat) = some table ∧
        exec .keysched s = .next (s.withInstance table) ∧ memRead 0x82 (s.withInstance table) = 0x01 ∧
        ∃ zeroKeyTable : SubkeyTable,
          ks (List.replicate s.klen.toNat 0) (8 * s.klen.toNat) = some zeroKeyTable ∧
          exec .keysched (s.withInstance table) = .next ((s.withInstance table).withInstance zeroKeyTable)) ∧
    (¬LegalKeyLength s.klen.toNat →
      ∃ t : State, exec .keysched s = .next t ∧ memRead 0x82 t = 0x06 ∧
        t = { s with
          k := Vector.replicate 64 0
          kvalid := false
          key := Vector.replicate 128 0
          errlen := s.klen
          ecode := .keySize })

/-- R175: ENCRYPT with an instance puts ENC(K, DIN) into DOUT and clears ECODE, and does the same again when repeated; without
one it reports NOKEY and changes nothing else. -/
def Obligations.EncryptEffect : Prop :=
  ∀ s : State,
    (s.kvalid = true → ∃ t : State, exec .encrypt s = .next t ∧
      t = { s with dout := enc s.k s.din, ecode := .none } ∧ memRead 0x82 t = 0x01 ∧ exec .encrypt t = .next t) ∧
    (s.kvalid = false → exec .encrypt s = .next { s with ecode := .noKey })

/-- R204: DECRYPT with an instance puts DEC(K, DIN) into DOUT and clears ECODE; without one it reports NOKEY and changes nothing
else. -/
def Obligations.DecryptEffect : Prop :=
  ∀ s : State,
    (s.kvalid = true → ∃ t : State, exec .decrypt s = .next t ∧
      t = { s with dout := dec s.k s.din, ecode := .none } ∧ memRead 0x82 t = 0x01 ∧ exec .decrypt t = .next t) ∧
    (s.kvalid = false → exec .decrypt s = .next { s with ecode := .noKey })

/-- R123: SBOX puts PI[DIN[0]] into DOUT[0], zeros into DOUT[1..7], and NONE into ECODE; STATUS then reads 0x00 or 0x01, as
KVALID stands. -/
def Obligations.SboxEffect : Prop :=
  ∀ s : State, ∃ t : State, exec .sbox s = .next t ∧
    t = { s with dout := #v[pi s.din[0], 0, 0, 0, 0, 0, 0, 0], ecode := .none } ∧
    memRead 0x82 t = (if s.kvalid then 0x01 else 0x00)

/-- R232: ZEROIZE gives the core the registers of the reset state (whatever it held), STATUS reads 0x00, and ENCRYPT and DECRYPT
then fail with NOKEY. The host's side stays. -/
def Obligations.ZeroizeEffect : Prop :=
  ∀ s : State, ∃ t : State, exec .zeroize s = .next t ∧
    t = { State.reset with pending := s.pending, readLog := s.readLog } ∧ memRead 0x82 t = 0x00 ∧
    exec .encrypt t = .next { t with ecode := .noKey } ∧ exec .decrypt t = .next { t with ecode := .noKey }

/-- R233: an illegal CMD byte sets ECODE to BADCMD and changes nothing else, by a host write and as a CMD8 code; STATUS then
reads 0x0F or 0x0E. -/
def Obligations.IllegalCommandEffect : Prop :=
  ∀ (s : State) (v : Byte), 0x06 ≤ v.toNat →
    exec (.wr 0x81 v) s = .next { s with ecode := .badCmd } ∧
    (∀ rest : List HostEvent, s.pending = .access (.cmd8 v) :: rest →
      step s = .next { s with pending := rest, ecode := .badCmd }) ∧
    memRead 0x82 { s with ecode := .badCmd } = (if s.kvalid then 0x0F else 0x0E)

/-- What the commands and reads leave unchanged, register by register and at every address the host can read. `pending` and
`readLog` are the model's own (log 1, log 2): they stay, but for the value a read adds. -/
def Obligations.CommandFrame : Prop :=
  ∀ s t : State,
    (exec .keysched s = .next t →
      t.klen = s.klen ∧ t.din = s.din ∧ t.dout = s.dout ∧ t.pending = s.pending ∧ t.readLog = s.readLog ∧
      ∀ a : Byte, a ≠ 0x82 → a ≠ 0x83 → memRead a t = memRead a s) ∧
    (∀ i : Instr, i = .encrypt ∨ i = .decrypt ∨ i = .sbox → exec i s = .next t →
      t.key = s.key ∧ t.klen = s.klen ∧ t.din = s.din ∧ t.k = s.k ∧ t.kvalid = s.kvalid ∧ t.errlen = s.errlen ∧
      t.pending = s.pending ∧ t.readLog = s.readLog ∧
      ∀ a : Byte, a ≠ 0x82 → ¬(0x90 ≤ a.toNat ∧ a.toNat ≤ 0x97) → memRead a t = memRead a s) ∧
    (∀ v : Byte, 0x06 ≤ v.toNat → exec (.wr 0x81 v) s = .next t →
      t.pending = s.pending ∧ t.readLog = s.readLog ∧ ∀ a : Byte, a ≠ 0x82 → memRead a t = memRead a s) ∧
    (∀ b : Byte, exec (.rd b) s = .next t →
      SameCore s t ∧ t.pending = s.pending ∧ t.readLog = memRead b s :: s.readLog ∧
      ∀ a : Byte, memRead a t = memRead a s)

/-! ### The S-box and the key schedule -/

/-- R122: PI takes each byte value exactly once. -/
def Obligations.PiIsBijection : Prop :=
  (∀ v w : Byte, pi v = pi w → v = w) ∧ (∀ y : Byte, ∃ v : Byte, pi v = y)

/-- R141: T8 is ceil(T1 / 8), and TM keeps the low T1 mod 8 bits of a byte, all 8 when T1 mod 8 is 0. -/
def Obligations.KsDerivedParameters : Prop :=
  ∀ t1 : Nat, 1 ≤ t1 → t1 ≤ 1024 →
    1 ≤ effectiveBytes t1 ∧ effectiveBytes t1 ≤ 128 ∧
    8 * (effectiveBytes t1 - 1) < t1 ∧ t1 ≤ 8 * effectiveBytes t1 ∧
    (∀ n : Nat, n < 8 → (truncMask t1).getLsbD n = decide (t1 % 8 = 0 ∨ n < t1 % 8))

/-- R142 and R143: LOAD writes L[0..T-1] from the key and FWD leaves them; FWD's L[i] is PI[L[i-1] + L[i-T]] for i = T to 127. -/
def Obligations.KsLoadAndForward : Prop :=
  (∀ (key : List Byte) (L : WorkBuffer), key.length ≤ 128 →
    (∀ (i : Nat) (h : i < key.length), bufGet (ksLoad key L) i = key[i]) ∧
    (∀ i : Nat, key.length ≤ i → i < 128 → bufGet (ksLoad key L) i = bufGet L i)) ∧
  (∀ (t : Nat) (L : WorkBuffer), 1 ≤ t → t ≤ 128 →
    (∀ i : Nat, i < t → bufGet (ksFwd t L) i = bufGet L i) ∧
    (∀ i : Nat, t ≤ i → i < 128 →
      bufGet (ksFwd t L) i = pi (bufGet (ksFwd t L) (i - 1) + bufGet (ksFwd t L) (i - t))))

/-- R144: TRUNC replaces L[128-T8] by PI[L[128-T8] AND TM] and writes nothing else. -/
def Obligations.KsTruncation : Prop :=
  ∀ (t8 : Nat) (tm : Byte) (L : WorkBuffer), 1 ≤ t8 → t8 ≤ 128 →
    bufGet (ksTrunc t8 tm L) (128 - t8) = pi (bufGet L (128 - t8) &&& tm) ∧
    (∀ i : Nat, i < 128 → i ≠ 128 - t8 → bufGet (ksTrunc t8 tm L) i = bufGet L i)

/-- R145: BWD's L[i] is PI[L[i+1] XOR L[i+T8]] for i = 127-T8 down to 0, and the entries above keep their values. -/
def Obligations.KsBackward : Prop :=
  ∀ (t8 : Nat) (L : WorkBuffer), 1 ≤ t8 → t8 ≤ 128 →
    (∀ i : Nat, i + t8 ≤ 127 →
      bufGet (ksBwd t8 L) i = pi (bufGet (ksBwd t8 L) (i + 1) ^^^ bufGet (ksBwd t8 L) (i + t8))) ∧
    (∀ i : Nat, 128 ≤ i + t8 → i < 128 → bufGet (ksBwd t8 L) i = bufGet L i)

/-- R146, R68: K[i] = L[2i] + 256 × L[2i+1]. -/
def Obligations.KsPacking : Prop :=
  ∀ (L : WorkBuffer) (i : Fin 64),
    (ksPack L)[i].toNat = (bufGet L (2 * i)).toNat + 256 * (bufGet L (2 * i + 1)).toNat

/-- R140 and R142: on its domain KS runs LOAD, FWD, TRUNC, BWD and PACK in that order, and what L starts as never affects the
result; it has no result outside its domain (93 U4). -/
def Obligations.KsRunsItsSteps : Prop :=
  ∀ (key : List Byte) (t1 : Nat),
    (LegalKeyLength key.length ∧ 1 ≤ t1 ∧ t1 ≤ 1024 → ∀ fill : WorkBuffer,
      ks key t1 = some (ksPack (ksBwd (effectiveBytes t1)
        (ksTrunc (effectiveBytes t1) (truncMask t1) (ksFwd key.length (ksLoad key fill)))))) ∧
    (¬(LegalKeyLength key.length ∧ 1 ≤ t1 ∧ t1 ≤ 1024) → ks key t1 = none)

/-- R151: after a successful KEYSCHED, K is a function of KEY[0..T-1] and T alone. -/
def Obligations.KeyschedReadsOnlyTheKey : Prop :=
  ∀ s s' : State, LegalKeyLength s.klen.toNat → s'.klen = s.klen →
    (∀ i : Fin 128, i.val < s.klen.toNat → s'.key[i] = s.key[i]) →
    ∃ t t' : State, exec .keysched s = .next t ∧ exec .keysched s' = .next t' ∧
      t.kvalid = true ∧ t'.kvalid = true ∧ t'.k = t.k

/-- R284: every KEYSCHED clears KEY, so a second one with no new key bytes schedules the zero key of length KLEN. -/
def Obligations.RekeyWithoutKeyBytes : Prop :=
  (∀ s : State, ∃ t : State, exec .keysched s = .next t ∧ t.key = Vector.replicate 128 0) ∧
  (∀ s : State, LegalKeyLength s.klen.toNat →
    ∃ (t : State) (table : SubkeyTable), exec .keysched s = .next t ∧
      ks (List.replicate s.klen.toNat 0) (8 * s.klen.toNat) = some table ∧
      exec .keysched t = .next (t.withInstance table))

/-! ### The rounds -/

/-- R200, R170: the two rotations bit by bit, and each undoes the other, for the core's amounts. -/
def Obligations.RotationsAreInverse : Prop :=
  ∀ (x : Word) (n : Nat), n = 1 ∨ n = 2 ∨ n = 3 ∨ n = 5 →
    (∀ i : Nat, i < 16 → (rotl16 x n).getLsbD ((i + n) % 16) = x.getLsbD i) ∧
    (∀ i : Nat, i < 16 → (rotr16 x n).getLsbD i = x.getLsbD ((i + n) % 16)) ∧
    rotr16 (rotl16 x n) n = x ∧ rotl16 (rotr16 x n) n = x

/-- R172, R171, R15: MIX word by word, each update reading the words already updated, with rotations 1, 2, 3, 5; j moves by 4. -/
def Obligations.MixRoundWords : Prop :=
  ∀ (k : SubkeyTable) (a b c d : Word) (j : Cursor),
    let a' := rotl16 (a + subkey k j + (d &&& c) + (~~~d &&& b)) 1
    let b' := rotl16 (b + subkey k (j + 1) + (a' &&& d) + (~~~a' &&& c)) 2
    let c' := rotl16 (c + subkey k (j + 2) + (b' &&& a') + (~~~b' &&& d)) 3
    let d' := rotl16 (d + subkey k (j + 3) + (c' &&& b') + (~~~c' &&& a')) 5
    mix k ⟨#v[a, b, c, d], j⟩ = ⟨#v[a', b', c', d'], j + 4⟩

/-- R173: MASH word by word; the index is the low 6 bits of the neighbouring word; j is unchanged. -/
def Obligations.MashRoundWords : Prop :=
  ∀ (k : SubkeyTable) (a b c d : Word) (j : Cursor),
    let a' := a + k[d.toNat % 64]
    let b' := b + k[a'.toNat % 64]
    let c' := c + k[b'.toNat % 64]
    let d' := d + k[c'.toNat % 64]
    mash k ⟨#v[a, b, c, d], j⟩ = ⟨#v[a', b', c', d'], j⟩

/-- R201: RMIX word by word, from R[3] down: rotate right, then subtract; j moves back by 4. -/
def Obligations.RmixRoundWords : Prop :=
  ∀ (k : SubkeyTable) (a b c d : Word) (j : Cursor),
    let d' := rotr16 d 5 - subkey k j - (c &&& b) - (~~~c &&& a)
    let c' := rotr16 c 3 - subkey k (j - 1) - (b &&& a) - (~~~b &&& d')
    let b' := rotr16 b 2 - subkey k (j - 2) - (a &&& d') - (~~~a &&& c')
    let a' := rotr16 a 1 - subkey k (j - 3) - (d' &&& c') - (~~~d' &&& b')
    rmix k ⟨#v[a, b, c, d], j⟩ = ⟨#v[a', b', c', d'], j - 4⟩

/-- R202: RMASH word by word, from R[3] down; j is unchanged. -/
def Obligations.RmashRoundWords : Prop :=
  ∀ (k : SubkeyTable) (a b c d : Word) (j : Cursor),
    let d' := d - k[c.toNat % 64]
    let c' := c - k[b.toNat % 64]
    let b' := b - k[a.toNat % 64]
    let a' := a - k[d'.toNat % 64]
    rmash k ⟨#v[a, b, c, d], j⟩ = ⟨#v[a', b', c', d'], j⟩

/-- R201, R202, R205: RMIX with the same subkeys in reverse order undoes MIX, RMASH undoes MASH, and the other way round. -/
def Obligations.InverseRoundsUndoRounds : Prop :=
  ∀ (k : SubkeyTable) (d : Datapath),
    rmix k ⟨(mix k d).r, d.j + 3⟩ = ⟨d.r, d.j - 1⟩ ∧ mix k ⟨(rmix k d).r, d.j - 3⟩ = ⟨d.r, d.j + 1⟩ ∧
    rmash k (mash k d) = d ∧ mash k (rmash k d) = d

/-- R174: ENC is 5 mixing rounds, MASH, 6 mixing rounds, MASH, 5 mixing rounds; mixing round n uses K[4(n-1)..4(n-1)+3],
and the cursor is back at 0 after round 16. -/
def Obligations.EncryptionSchedule : Prop :=
  ∀ (k : SubkeyTable) (b : Block),
    let r1 := [0, 1, 2, 3, 4].foldl (mixRound k) (unpackBlock b)
    let r2 := [5, 6, 7, 8, 9, 10].foldl (mixRound k) (mash k ⟨r1, 0⟩).r
    let r3 := [11, 12, 13, 14, 15].foldl (mixRound k) (mash k ⟨r2, 0⟩).r
    enc k b = packBlock r3 ∧ encRounds k ⟨unpackBlock b, 0⟩ = ⟨r3, 0⟩

/-- R203: DEC is 5 r-mixing rounds, RMASH, 6 r-mixing rounds, RMASH, 5 r-mixing rounds; r-mixing round m uses K[63-4(m-1)] down
to K[60-4(m-1)], and the cursor is back at 63 after round 16. -/
def Obligations.DecryptionSchedule : Prop :=
  ∀ (k : SubkeyTable) (b : Block),
    let r1 := [0, 1, 2, 3, 4].foldl (rmixRound k) (unpackBlock b)
    let r2 := [5, 6, 7, 8, 9, 10].foldl (rmixRound k) (rmash k ⟨r1, 0⟩).r
    let r3 := [11, 12, 13, 14, 15].foldl (rmixRound k) (rmash k ⟨r2, 0⟩).r
    dec k b = packBlock r3 ∧ decRounds k ⟨unpackBlock b, 63⟩ = ⟨r3, 63⟩

/-- R205: for every table DEC undoes ENC and ENC undoes DEC; and at the command level, after a successful KEYSCHED, ENCRYPT
followed by copying DOUT to DIN and DECRYPT gives DOUT = the original DIN. -/
def Obligations.DecryptInvertsEncrypt : Prop :=
  (∀ (k : SubkeyTable) (p : Block), dec k (enc k p) = p ∧ enc k (dec k p) = p) ∧
  (∀ s : State, LegalKeyLength s.klen.toNat → ∃ t u w : State,
    exec .keysched s = .next t ∧ exec .encrypt t = .next u ∧
    exec .decrypt { u with din := u.dout } = .next w ∧ w.dout = s.din)

/-- R176: for every fixed K, ENC is a permutation of the blocks. -/
def Obligations.EncryptionIsPermutation : Prop :=
  ∀ k : SubkeyTable, (∀ p q : Block, enc k p = enc k q → p = q) ∧ (∀ c : Block, ∃ p : Block, enc k p = c)

/-! ### The whole machine -/

/-- Every instruction answers a next state in every state: no host access faults or is refused (R62, R63, R250). -/
def Obligations.EveryInstructionCompletes : Prop := ∀ (i : Instr) (s : State), ∃ t : State, exec i s = .next t

/-- Every step keeps the invariant of the cipher instance (R22, R23, R29, R251): without an instance K is zero, with one K is the
table of a legal key. -/
def Obligations.InstanceInvariantKept : Prop := ∀ s t : State, s.Inv → step s = .next t → t.Inv

/-- The invariant of the cipher instance holds at reset (R280). -/
def Obligations.InstanceInvariantAtReset : Prop := State.reset.Inv

/-- In every state of the invariant, STATUS reads as one of the six values of `95_test_vectors.md`. -/
def Obligations.StatusReadsOneOfSix : Prop :=
  ∀ s : State, s.Inv →
    memRead 0x82 s = 0x00 ∨ memRead 0x82 s = 0x01 ∨ memRead 0x82 s = 0x06 ∨ memRead 0x82 s = 0x0A ∨
    memRead 0x82 s = 0x0E ∨ memRead 0x82 s = 0x0F

/-- R22, R23: only KEYSCHED, ZEROIZE and reset change K or KVALID, and only a KEYSCHED with a legal length sets KVALID. -/
def Obligations.SubkeyTableWriters : Prop :=
  ∀ s t : State, step s = .next t →
    (t.k ≠ s.k ∨ t.kvalid ≠ s.kvalid →
      ∃ e : HostEvent, s.pending.head? = some e ∧ (e = .reset ∨ RunsCommand e 0x01 ∨ RunsCommand e 0x05)) ∧
    (s.kvalid = false → t.kvalid = true →
      ∃ e : HostEvent, s.pending.head? = some e ∧ RunsCommand e 0x01 ∧ LegalKeyLength s.klen.toNat)

/-- R24, R25, R26: what changes KEY, KLEN and DIN. -/
def Obligations.InputRegisterWriters : Prop :=
  ∀ s t : State, step s = .next t →
    (t.key ≠ s.key → ∃ e : HostEvent, s.pending.head? = some e ∧
      (e = .reset ∨ RunsCommand e 0x01 ∨ RunsCommand e 0x05 ∨ ∃ a v : Byte, a.toNat ≤ 0x7F ∧ HostWrites e a v)) ∧
    (t.klen ≠ s.klen → ∃ e : HostEvent, s.pending.head? = some e ∧
      (e = .reset ∨ RunsCommand e 0x05 ∨ ∃ v : Byte, HostWrites e 0x80 v)) ∧
    (t.din ≠ s.din → ∃ e : HostEvent, s.pending.head? = some e ∧
      (e = .reset ∨ RunsCommand e 0x05 ∨ ∃ a v : Byte, 0x88 ≤ a.toNat ∧ a.toNat ≤ 0x8F ∧ HostWrites e a v))

/-- R27, R28, R29: what changes DOUT, ERRLEN and ECODE. -/
def Obligations.OutputRegisterWriters : Prop :=
  ∀ s t : State, step s = .next t →
    (t.dout ≠ s.dout → ∃ e : HostEvent, s.pending.head? = some e ∧
      (e = .reset ∨ RunsCommand e 0x02 ∨ RunsCommand e 0x03 ∨ RunsCommand e 0x04 ∨ RunsCommand e 0x05)) ∧
    (t.errlen ≠ s.errlen → ∃ e : HostEvent, s.pending.head? = some e ∧
      (e = .reset ∨ RunsCommand e 0x01 ∨ RunsCommand e 0x05)) ∧
    (t.ecode ≠ s.ecode → ∃ e : HostEvent, s.pending.head? = some e ∧
      (e = .reset ∨ ∃ v : Byte, v ≠ 0x00 ∧ RunsCommand e v))

/-- R254, R251: the ECODE each CMD byte leaves, and the length recorded with KEYSIZE. -/
def Obligations.ErrorOfEachCommand : Prop :=
  ∀ (s : State) (e : HostEvent) (v : Byte), s.pending.head? = some e → RunsCommand e v →
    ∃ t : State, step s = .next t ∧
      (v = 0x00 → t.ecode = s.ecode ∧ t.errlen = s.errlen) ∧
      (v = 0x01 → LegalKeyLength s.klen.toNat → t.ecode = .none ∧ t.errlen = s.errlen) ∧
      (v = 0x01 → ¬LegalKeyLength s.klen.toNat → t.ecode = .keySize ∧ t.errlen = s.klen) ∧
      (v = 0x02 ∨ v = 0x03 → t.ecode = (if s.kvalid then .none else .noKey) ∧ t.errlen = s.errlen) ∧
      (v = 0x04 → t.ecode = .none ∧ t.errlen = s.errlen) ∧
      (v = 0x05 → t.ecode = .none ∧ t.errlen = 0x00) ∧
      (0x06 ≤ v.toNat → t.ecode = .badCmd ∧ t.errlen = s.errlen)

/-- Reset sets every persistent element to its reset value, whatever the state; BLKSIZE still reads 0x08 (R280). That the host's
pending events and its read log stay across a reset is the model's choice (log 1, log 2). -/
def Obligations.ResetEventEffect : Prop :=
  ∀ (s : State) (rest : List HostEvent), s.pending = .reset :: rest →
    ∃ t : State, step s = .next t ∧
      t.key = Vector.replicate 128 0 ∧ t.klen = 0 ∧ t.din = Vector.replicate 8 0 ∧ t.dout = Vector.replicate 8 0 ∧
      t.k = Vector.replicate 64 0 ∧ t.kvalid = false ∧ t.ecode = .none ∧ t.errlen = 0 ∧
      t.pending = rest ∧ t.readLog = s.readLog ∧ memRead 0x84 t = 0x08 ∧
      SameCore State.reset t

/-- R282: after reset STATUS reads 0x00 and SBOX works at once; and from any state with no instance, as long as no KEYSCHED
command is served, there is none, and ENCRYPT and DECRYPT report NOKEY. -/
def Obligations.NoInstanceUntilKeysched : Prop :=
  State.reset.kvalid = false ∧ memRead 0x82 State.reset = 0x00 ∧
  (∃ t : State, exec .sbox State.reset = .next t ∧ t.ecode = .none ∧ t.dout[0] = pi 0x00) ∧
  (∀ (n : Nat) (s t : State), s.kvalid = false → (∀ e ∈ s.pending, ¬RunsCommand e 0x01) →
    Sys2Proof.core.run n s = .next t →
    t.kvalid = false ∧ exec .encrypt t = .next { t with ecode := .noKey } ∧
    exec .decrypt t = .next { t with ecode := .noKey })

/-- A program of reset events, CMD bytes and transactions runs to its end: every step from a ready state answers a next, ready
state (R70, R94, R95). -/
def Obligations.ReadyProgramsRun : Prop :=
  ∀ (n : Nat) (s : State), s.ready = true →
    ∃ t : State, Sys2Proof.core.run n s = .next t ∧ t.ready = true ∧ t.pending = s.pending.drop n

/-- R74: with no command and no reset served, DOUT, STATUS and ERRLEN (and K) stay, over any number of accesses. -/
def Obligations.OutputsStableWithoutCommands : Prop :=
  ∀ (events rest : List HostEvent) (s t : State), s.pending = events ++ rest →
    (∀ e ∈ events, e ≠ .reset ∧ ∀ v : Byte, ¬RunsCommand e v) →
    Sys2Proof.core.run events.length s = .next t →
    t.dout = s.dout ∧ t.errlen = s.errlen ∧ memRead 0x82 t = memRead 0x82 s ∧ t.k = s.k ∧ t.kvalid = s.kvalid ∧
    t.ecode = s.ecode ∧ t.pending = rest

/-- R74, R96: the 8 reads of `getblk` return one coherent block, DOUT[0] to DOUT[7], and change nothing of the core. -/
def Obligations.OutputBlockReadsBack : Prop :=
  ∀ (s : State) (rest : List HostEvent), s.pending = hostEvents asmGetblk ++ rest →
    Sys2Proof.core.run 8 s =
      .next { s with pending := rest, readLog := s.dout.toList.reverse ++ s.readLog }

/-- R24, R38, R258: what is in KEY cannot be seen by any program that serves no KEYSCHED. -/
def Obligations.KeyBufferUnseen : Prop :=
  ∀ (n : Nat) (s t : State) (key' : KeyBuffer), (∀ e ∈ s.pending, ¬RunsCommand e 0x01) →
    Sys2Proof.core.run n s = .next t →
    ∃ t' : State, Sys2Proof.core.run n { s with key := key' } = .next t' ∧ t'.readLog = t.readLog

/-- R22, R38: what is in K cannot be seen by any program that serves no ENCRYPT and no DECRYPT. -/
def Obligations.SubkeyTableUnseen : Prop :=
  ∀ (n : Nat) (s t : State) (k' : SubkeyTable),
    (∀ e ∈ s.pending, ¬RunsCommand e 0x02 ∧ ¬RunsCommand e 0x03) →
    Sys2Proof.core.run n s = .next t →
    ∃ t' : State, Sys2Proof.core.run n { s with k := k' } = .next t' ∧ t'.readLog = t.readLog

/-- R283: the host's sequence, from any state: write the key and its length, KEYSCHED, read STATUS, write the block, ENCRYPT or
DECRYPT, read DOUT. STATUS reads 0x01 and the 8 bytes read are ENC or DEC of the block under KS(key, 8T). -/
def Obligations.HostSequenceGivesTheCipher : Prop :=
  ∀ (s : State) (key : List Byte) (p : Block) (v : Byte), LegalKeyLength key.length → v = 0x02 ∨ v = 0x03 →
    s.pending = hostEvents (asmSetkey key ++ asmCommand 0x01 ++ asmRdstatus ++ asmSetblk p ++ asmCommand v ++ asmGetblk) →
    ∃ (table : SubkeyTable) (t : State), ks key (8 * key.length) = some table ∧
      Sys2Proof.core.run s.pending.length s = .next t ∧ t.pending = [] ∧
      t.readLog = (if v = 0x02 then enc table p else dec table p).toList.reverse ++ [0x01] ++ s.readLog
end

