-- ==== Sys2Proof/Laws/Arrays.lean ====
section
/-! SUPPORT. Read-after-write laws of the working buffer and the block words, the law of a repeated round, and what the rounds do to the
cursor. -/

namespace Sys2Proof.Machine

theorem bufGet_bufSet_same (L : WorkBuffer) (v : Byte) (i : Nat) : bufGet (bufSet L i v) i = v := by
  simp [bufGet, bufSet]

theorem bufGet_bufSet_other (L : WorkBuffer) (v : Byte) {i j : Nat} (hi : i < 128) (hj : j < 128) (h : i ≠ j) :
    bufGet (bufSet L i v) j = bufGet L j := by
  have hne : i % 128 ≠ j % 128 := by omega
  simp [bufGet, bufSet, Vector.getElem_set_ne, hne]

/-- Two working buffers that read alike at every index are equal. -/
theorem bufGet_ext {L M : WorkBuffer} (h : ∀ i, i < 128 → bufGet L i = bufGet M i) : L = M := by
  apply Vector.ext
  intro i hi
  simpa [bufGet, Nat.mod_eq_of_lt hi] using h i hi

theorem ksPack_get (L : WorkBuffer) (i : Nat) (h : i < 64) :
    (ksPack L)[i] = wordOfBytes (bufGet L (2 * i)) (bufGet L (2 * i + 1)) := by
  simp [ksPack]

@[simp] theorem words_set_same (r : BlockWords) (v : Word) (i : Fin 4) : (r.set i v)[i] = v := by simp

theorem words_set_other (r : BlockWords) (v : Word) {i j : Fin 4} (h : i ≠ j) : (r.set i v)[j] = r[j] := by
  have : i.val ≠ j.val := fun e => h (Fin.ext e)
  simp [Vector.getElem_set_ne, this]

theorem words_set_set (r : BlockWords) (v w : Word) (i : Fin 4) : (r.set i v).set i w = r.set i w := by simp

theorem words_set_self (r : BlockWords) (i : Fin 4) : r.set i r[i] = r := by simp

@[simp] theorem repeatTimes_zero {α : Type} (f : α → α) (x : α) : repeatTimes f 0 x = x := rfl

@[simp] theorem repeatTimes_succ {α : Type} (f : α → α) (n : Nat) (x : α) :
    repeatTimes f (n + 1) x = repeatTimes f n (f x) := rfl

theorem repeatTimes_succ_outer {α : Type} (f : α → α) (n : Nat) (x : α) :
    repeatTimes f (n + 1) x = f (repeatTimes f n x) := by
  induction n generalizing x with
  | zero => rfl
  | succ n ih => exact ih (f x)

/-- What undoes one round undoes n of them. -/
theorem repeatTimes_undo {α : Type} {f g : α → α} (h : ∀ x, g (f x) = x) (n : Nat) (x : α) :
    repeatTimes g n (repeatTimes f n x) = x := by
  induction n generalizing x with
  | zero => rfl
  | succ n ih => rw [repeatTimes_succ_outer f, repeatTimes_succ, h, ih]

/-! ### The cursor: what each round does to j -/

@[simp] theorem mix_j (k : SubkeyTable) (d : Datapath) : (mix k d).j = d.j + 4 := by
  simp only [mix, mixWord, List.foldl]; bv_omega

@[simp] theorem rmix_j (k : SubkeyTable) (d : Datapath) : (rmix k d).j = d.j - 4 := by
  simp only [rmix, rmixWord, List.foldl]; bv_omega

@[simp] theorem mash_j (k : SubkeyTable) (d : Datapath) : (mash k d).j = d.j := rfl

@[simp] theorem rmash_j (k : SubkeyTable) (d : Datapath) : (rmash k d).j = d.j := rfl

/-- j is back where it started after the 16 mixing rounds (`42_encrypt.md` R174). -/
theorem encRounds_j (k : SubkeyTable) (d : Datapath) : (encRounds k d).j = d.j := by
  simp only [encRounds, repeatTimes_succ, repeatTimes_zero, mix_j, mash_j]; bv_omega

/-- j is back where it started after the 16 r-mixing rounds (`43_decrypt.md` R203). -/
theorem decRounds_j (k : SubkeyTable) (d : Datapath) : (decRounds k d).j = d.j := by
  simp only [decRounds, repeatTimes_succ, repeatTimes_zero, rmix_j, rmash_j]; bv_omega

end Sys2Proof.Machine
end

