-- ==== Sys2Proof/Laws/State.lean ====
section
/-! SUPPORT. One lemma per field per named update of State, so that no proof unfolds a record update. -/

namespace Sys2Proof.Machine

variable (s : State)

/-! ### raiseError -/

@[simp] theorem raiseError_key (e : Ecode) : (raiseError e s).key = s.key := rfl
@[simp] theorem raiseError_klen (e : Ecode) : (raiseError e s).klen = s.klen := rfl
@[simp] theorem raiseError_din (e : Ecode) : (raiseError e s).din = s.din := rfl
@[simp] theorem raiseError_dout (e : Ecode) : (raiseError e s).dout = s.dout := rfl
@[simp] theorem raiseError_k (e : Ecode) : (raiseError e s).k = s.k := rfl
@[simp] theorem raiseError_kvalid (e : Ecode) : (raiseError e s).kvalid = s.kvalid := rfl
@[simp] theorem raiseError_ecode (e : Ecode) : (raiseError e s).ecode = e := rfl
@[simp] theorem raiseError_errlen (e : Ecode) : (raiseError e s).errlen = s.errlen := rfl
@[simp] theorem raiseError_pending (e : Ecode) : (raiseError e s).pending = s.pending := rfl
@[simp] theorem raiseError_readLog (e : Ecode) : (raiseError e s).readLog = s.readLog := rfl

/-! ### succeed -/

@[simp] theorem succeed_key : (succeed s).key = s.key := rfl
@[simp] theorem succeed_klen : (succeed s).klen = s.klen := rfl
@[simp] theorem succeed_din : (succeed s).din = s.din := rfl
@[simp] theorem succeed_dout : (succeed s).dout = s.dout := rfl
@[simp] theorem succeed_k : (succeed s).k = s.k := rfl
@[simp] theorem succeed_kvalid : (succeed s).kvalid = s.kvalid := rfl
@[simp] theorem succeed_ecode : (succeed s).ecode = .none := rfl
@[simp] theorem succeed_errlen : (succeed s).errlen = s.errlen := rfl
@[simp] theorem succeed_pending : (succeed s).pending = s.pending := rfl
@[simp] theorem succeed_readLog : (succeed s).readLog = s.readLog := rfl

/-! ### recordKeyLength -/

@[simp] theorem recordKeyLength_key : (recordKeyLength s).key = s.key := rfl
@[simp] theorem recordKeyLength_klen : (recordKeyLength s).klen = s.klen := rfl
@[simp] theorem recordKeyLength_din : (recordKeyLength s).din = s.din := rfl
@[simp] theorem recordKeyLength_dout : (recordKeyLength s).dout = s.dout := rfl
@[simp] theorem recordKeyLength_k : (recordKeyLength s).k = s.k := rfl
@[simp] theorem recordKeyLength_kvalid : (recordKeyLength s).kvalid = s.kvalid := rfl
@[simp] theorem recordKeyLength_ecode : (recordKeyLength s).ecode = s.ecode := rfl
@[simp] theorem recordKeyLength_errlen : (recordKeyLength s).errlen = s.klen := rfl
@[simp] theorem recordKeyLength_pending : (recordKeyLength s).pending = s.pending := rfl
@[simp] theorem recordKeyLength_readLog : (recordKeyLength s).readLog = s.readLog := rfl

/-! ### clearKey -/

@[simp] theorem clearKey_key : (clearKey s).key = Vector.replicate 128 0 := rfl
@[simp] theorem clearKey_klen : (clearKey s).klen = s.klen := rfl
@[simp] theorem clearKey_din : (clearKey s).din = s.din := rfl
@[simp] theorem clearKey_dout : (clearKey s).dout = s.dout := rfl
@[simp] theorem clearKey_k : (clearKey s).k = s.k := rfl
@[simp] theorem clearKey_kvalid : (clearKey s).kvalid = s.kvalid := rfl
@[simp] theorem clearKey_ecode : (clearKey s).ecode = s.ecode := rfl
@[simp] theorem clearKey_errlen : (clearKey s).errlen = s.errlen := rfl
@[simp] theorem clearKey_pending : (clearKey s).pending = s.pending := rfl
@[simp] theorem clearKey_readLog : (clearKey s).readLog = s.readLog := rfl

/-! ### destroyInstance -/

@[simp] theorem destroyInstance_key : (destroyInstance s).key = s.key := rfl
@[simp] theorem destroyInstance_klen : (destroyInstance s).klen = s.klen := rfl
@[simp] theorem destroyInstance_din : (destroyInstance s).din = s.din := rfl
@[simp] theorem destroyInstance_dout : (destroyInstance s).dout = s.dout := rfl
@[simp] theorem destroyInstance_k : (destroyInstance s).k = Vector.replicate 64 0 := rfl
@[simp] theorem destroyInstance_kvalid : (destroyInstance s).kvalid = false := rfl
@[simp] theorem destroyInstance_ecode : (destroyInstance s).ecode = s.ecode := rfl
@[simp] theorem destroyInstance_errlen : (destroyInstance s).errlen = s.errlen := rfl
@[simp] theorem destroyInstance_pending : (destroyInstance s).pending = s.pending := rfl
@[simp] theorem destroyInstance_readLog : (destroyInstance s).readLog = s.readLog := rfl

/-! ### installTable -/

@[simp] theorem installTable_key (t : SubkeyTable) : (installTable t s).key = s.key := rfl
@[simp] theorem installTable_klen (t : SubkeyTable) : (installTable t s).klen = s.klen := rfl
@[simp] theorem installTable_din (t : SubkeyTable) : (installTable t s).din = s.din := rfl
@[simp] theorem installTable_dout (t : SubkeyTable) : (installTable t s).dout = s.dout := rfl
@[simp] theorem installTable_k (t : SubkeyTable) : (installTable t s).k = t := rfl
@[simp] theorem installTable_kvalid (t : SubkeyTable) : (installTable t s).kvalid = true := rfl
@[simp] theorem installTable_ecode (t : SubkeyTable) : (installTable t s).ecode = s.ecode := rfl
@[simp] theorem installTable_errlen (t : SubkeyTable) : (installTable t s).errlen = s.errlen := rfl
@[simp] theorem installTable_pending (t : SubkeyTable) : (installTable t s).pending = s.pending := rfl
@[simp] theorem installTable_readLog (t : SubkeyTable) : (installTable t s).readLog = s.readLog := rfl

/-! ### setDout -/

@[simp] theorem setDout_key (b : Block) : (setDout b s).key = s.key := rfl
@[simp] theorem setDout_klen (b : Block) : (setDout b s).klen = s.klen := rfl
@[simp] theorem setDout_din (b : Block) : (setDout b s).din = s.din := rfl
@[simp] theorem setDout_dout (b : Block) : (setDout b s).dout = b := rfl
@[simp] theorem setDout_k (b : Block) : (setDout b s).k = s.k := rfl
@[simp] theorem setDout_kvalid (b : Block) : (setDout b s).kvalid = s.kvalid := rfl
@[simp] theorem setDout_ecode (b : Block) : (setDout b s).ecode = s.ecode := rfl
@[simp] theorem setDout_errlen (b : Block) : (setDout b s).errlen = s.errlen := rfl
@[simp] theorem setDout_pending (b : Block) : (setDout b s).pending = s.pending := rfl
@[simp] theorem setDout_readLog (b : Block) : (setDout b s).readLog = s.readLog := rfl

/-! ### setKeyByte -/

@[simp] theorem setKeyByte_key (i : Fin 128) (v : Byte) : (setKeyByte i v s).key = s.key.set i v := rfl
@[simp] theorem setKeyByte_klen (i : Fin 128) (v : Byte) : (setKeyByte i v s).klen = s.klen := rfl
@[simp] theorem setKeyByte_din (i : Fin 128) (v : Byte) : (setKeyByte i v s).din = s.din := rfl
@[simp] theorem setKeyByte_dout (i : Fin 128) (v : Byte) : (setKeyByte i v s).dout = s.dout := rfl
@[simp] theorem setKeyByte_k (i : Fin 128) (v : Byte) : (setKeyByte i v s).k = s.k := rfl
@[simp] theorem setKeyByte_kvalid (i : Fin 128) (v : Byte) : (setKeyByte i v s).kvalid = s.kvalid := rfl
@[simp] theorem setKeyByte_ecode (i : Fin 128) (v : Byte) : (setKeyByte i v s).ecode = s.ecode := rfl
@[simp] theorem setKeyByte_errlen (i : Fin 128) (v : Byte) : (setKeyByte i v s).errlen = s.errlen := rfl
@[simp] theorem setKeyByte_pending (i : Fin 128) (v : Byte) : (setKeyByte i v s).pending = s.pending := rfl
@[simp] theorem setKeyByte_readLog (i : Fin 128) (v : Byte) : (setKeyByte i v s).readLog = s.readLog := rfl

/-! ### setKlen -/

@[simp] theorem setKlen_key (v : Byte) : (setKlen v s).key = s.key := rfl
@[simp] theorem setKlen_klen (v : Byte) : (setKlen v s).klen = v := rfl
@[simp] theorem setKlen_din (v : Byte) : (setKlen v s).din = s.din := rfl
@[simp] theorem setKlen_dout (v : Byte) : (setKlen v s).dout = s.dout := rfl
@[simp] theorem setKlen_k (v : Byte) : (setKlen v s).k = s.k := rfl
@[simp] theorem setKlen_kvalid (v : Byte) : (setKlen v s).kvalid = s.kvalid := rfl
@[simp] theorem setKlen_ecode (v : Byte) : (setKlen v s).ecode = s.ecode := rfl
@[simp] theorem setKlen_errlen (v : Byte) : (setKlen v s).errlen = s.errlen := rfl
@[simp] theorem setKlen_pending (v : Byte) : (setKlen v s).pending = s.pending := rfl
@[simp] theorem setKlen_readLog (v : Byte) : (setKlen v s).readLog = s.readLog := rfl

/-! ### setDinByte -/

@[simp] theorem setDinByte_key (i : Fin 8) (v : Byte) : (setDinByte i v s).key = s.key := rfl
@[simp] theorem setDinByte_klen (i : Fin 8) (v : Byte) : (setDinByte i v s).klen = s.klen := rfl
@[simp] theorem setDinByte_din (i : Fin 8) (v : Byte) : (setDinByte i v s).din = s.din.set i v := rfl
@[simp] theorem setDinByte_dout (i : Fin 8) (v : Byte) : (setDinByte i v s).dout = s.dout := rfl
@[simp] theorem setDinByte_k (i : Fin 8) (v : Byte) : (setDinByte i v s).k = s.k := rfl
@[simp] theorem setDinByte_kvalid (i : Fin 8) (v : Byte) : (setDinByte i v s).kvalid = s.kvalid := rfl
@[simp] theorem setDinByte_ecode (i : Fin 8) (v : Byte) : (setDinByte i v s).ecode = s.ecode := rfl
@[simp] theorem setDinByte_errlen (i : Fin 8) (v : Byte) : (setDinByte i v s).errlen = s.errlen := rfl
@[simp] theorem setDinByte_pending (i : Fin 8) (v : Byte) : (setDinByte i v s).pending = s.pending := rfl
@[simp] theorem setDinByte_readLog (i : Fin 8) (v : Byte) : (setDinByte i v s).readLog = s.readLog := rfl

/-! ### respond -/

@[simp] theorem respond_key (v : Byte) : (respond v s).key = s.key := rfl
@[simp] theorem respond_klen (v : Byte) : (respond v s).klen = s.klen := rfl
@[simp] theorem respond_din (v : Byte) : (respond v s).din = s.din := rfl
@[simp] theorem respond_dout (v : Byte) : (respond v s).dout = s.dout := rfl
@[simp] theorem respond_k (v : Byte) : (respond v s).k = s.k := rfl
@[simp] theorem respond_kvalid (v : Byte) : (respond v s).kvalid = s.kvalid := rfl
@[simp] theorem respond_ecode (v : Byte) : (respond v s).ecode = s.ecode := rfl
@[simp] theorem respond_errlen (v : Byte) : (respond v s).errlen = s.errlen := rfl
@[simp] theorem respond_pending (v : Byte) : (respond v s).pending = s.pending := rfl
@[simp] theorem respond_readLog (v : Byte) : (respond v s).readLog = v :: s.readLog := rfl

/-! ### resetCore -/

@[simp] theorem resetCore_key : (resetCore s).key = Vector.replicate 128 0 := rfl
@[simp] theorem resetCore_klen : (resetCore s).klen = 0 := rfl
@[simp] theorem resetCore_din : (resetCore s).din = Vector.replicate 8 0 := rfl
@[simp] theorem resetCore_dout : (resetCore s).dout = Vector.replicate 8 0 := rfl
@[simp] theorem resetCore_k : (resetCore s).k = Vector.replicate 64 0 := rfl
@[simp] theorem resetCore_kvalid : (resetCore s).kvalid = false := rfl
@[simp] theorem resetCore_ecode : (resetCore s).ecode = .none := rfl
@[simp] theorem resetCore_errlen : (resetCore s).errlen = 0 := rfl
@[simp] theorem resetCore_pending : (resetCore s).pending = s.pending := rfl
@[simp] theorem resetCore_readLog : (resetCore s).readLog = s.readLog := rfl

/-! ### runZeroize -/

@[simp] theorem runZeroize_key : (runZeroize s).key = Vector.replicate 128 0 := rfl
@[simp] theorem runZeroize_klen : (runZeroize s).klen = 0 := rfl
@[simp] theorem runZeroize_din : (runZeroize s).din = Vector.replicate 8 0 := rfl
@[simp] theorem runZeroize_dout : (runZeroize s).dout = Vector.replicate 8 0 := rfl
@[simp] theorem runZeroize_k : (runZeroize s).k = Vector.replicate 64 0 := rfl
@[simp] theorem runZeroize_kvalid : (runZeroize s).kvalid = false := rfl
@[simp] theorem runZeroize_ecode : (runZeroize s).ecode = .none := rfl
@[simp] theorem runZeroize_errlen : (runZeroize s).errlen = 0 := rfl
@[simp] theorem runZeroize_pending : (runZeroize s).pending = s.pending := rfl
@[simp] theorem runZeroize_readLog : (runZeroize s).readLog = s.readLog := rfl

/-! ### issueFirst -/

@[simp] theorem issueFirst_key (e : HostEvent) : (issueFirst e s).key = s.key := rfl
@[simp] theorem issueFirst_klen (e : HostEvent) : (issueFirst e s).klen = s.klen := rfl
@[simp] theorem issueFirst_din (e : HostEvent) : (issueFirst e s).din = s.din := rfl
@[simp] theorem issueFirst_dout (e : HostEvent) : (issueFirst e s).dout = s.dout := rfl
@[simp] theorem issueFirst_k (e : HostEvent) : (issueFirst e s).k = s.k := rfl
@[simp] theorem issueFirst_kvalid (e : HostEvent) : (issueFirst e s).kvalid = s.kvalid := rfl
@[simp] theorem issueFirst_ecode (e : HostEvent) : (issueFirst e s).ecode = s.ecode := rfl
@[simp] theorem issueFirst_errlen (e : HostEvent) : (issueFirst e s).errlen = s.errlen := rfl
@[simp] theorem issueFirst_pending (e : HostEvent) : (issueFirst e s).pending = e :: s.pending := rfl
@[simp] theorem issueFirst_readLog (e : HostEvent) : (issueFirst e s).readLog = s.readLog := rfl

/-! ### the state after reset -/

@[simp] theorem reset_key : State.reset.key = Vector.replicate 128 0 := rfl
@[simp] theorem reset_klen : State.reset.klen = 0 := rfl
@[simp] theorem reset_din : State.reset.din = Vector.replicate 8 0 := rfl
@[simp] theorem reset_dout : State.reset.dout = Vector.replicate 8 0 := rfl
@[simp] theorem reset_k : State.reset.k = Vector.replicate 64 0 := rfl
@[simp] theorem reset_kvalid : State.reset.kvalid = false := rfl
@[simp] theorem reset_ecode : State.reset.ecode = .none := rfl
@[simp] theorem reset_errlen : State.reset.errlen = 0 := rfl
@[simp] theorem reset_pending : State.reset.pending = [] := rfl
@[simp] theorem reset_readLog : State.reset.readLog = [] := rfl

end Sys2Proof.Machine
end

