-- ==== Sys2Proof/Laws/Commands.lean ====
section
/-! SUPPORT. What Execute, MemWrite, exec and step can do, said once: one equation per command byte, register and constructor,
and the case lists later proofs cite. -/

namespace Sys2Proof.Machine

/-! ### The register map -/

theorem hostReg_key (a : Byte) (h : a.toNat ≤ 0x7F) : hostReg a = .key ⟨a.toNat, by omega⟩ := by simp [hostReg, h]
@[simp] theorem hostReg_klen : hostReg 0x80#8 = .klen := by decide
@[simp] theorem hostReg_cmd : hostReg 0x81#8 = .cmd := by decide
@[simp] theorem hostReg_status : hostReg 0x82#8 = .status := by decide
@[simp] theorem hostReg_errlen : hostReg 0x83#8 = .errlen := by decide
@[simp] theorem hostReg_blksize : hostReg 0x84#8 = .blksize := by decide

/-- CMD stands at one address only (R61). -/
theorem hostReg_eq_cmd {a : Byte} : hostReg a = .cmd ↔ a = 0x81 := by
  refine ⟨fun h => ?_, fun h => h ▸ hostReg_cmd⟩
  unfold hostReg at h
  repeat' split at h
  all_goals first | assumption | simp at h

/-! ### Dispatch -/

theorem decodeCommand_illegal (v : Byte) (h : 6 ≤ v.toNat) : decodeCommand v = .illegal := by
  revert h; revert v; decide +kernel

@[simp] theorem execute_nop (s : State) : execute 0x00#8 s = s := rfl
@[simp] theorem execute_keysched (s : State) : execute 0x01#8 s = runKeysched s := rfl
@[simp] theorem execute_encrypt (s : State) : execute 0x02#8 s = runEncrypt s := rfl
@[simp] theorem execute_decrypt (s : State) : execute 0x03#8 s = runDecrypt s := rfl
@[simp] theorem execute_sbox (s : State) : execute 0x04#8 s = runSbox s := rfl
@[simp] theorem execute_zeroize (s : State) : execute 0x05#8 s = runZeroize s := rfl

theorem execute_illegal (v : Byte) (s : State) (h : 6 ≤ v.toNat) : execute v s = raiseError .badCmd s := by
  simp [execute, decodeCommand_illegal v h, runIllegal]

/-- Everything Execute can do (R230). -/
theorem execute_cases (v : Byte) (s : State) :
    (v = 0x00 ∧ execute v s = s) ∨ (v = 0x01 ∧ execute v s = runKeysched s) ∨
    (v = 0x02 ∧ execute v s = runEncrypt s) ∨ (v = 0x03 ∧ execute v s = runDecrypt s) ∨
    (v = 0x04 ∧ execute v s = runSbox s) ∨ (v = 0x05 ∧ execute v s = runZeroize s) ∨
    (6 ≤ v.toNat ∧ execute v s = raiseError .badCmd s) := by
  by_cases h : 6 ≤ v.toNat
  · simp [h, execute_illegal v s h]
  · have hv : v = 0x00 ∨ v = 0x01 ∨ v = 0x02 ∨ v = 0x03 ∨ v = 0x04 ∨ v = 0x05 := by
      clear s; revert h; revert v; decide +kernel
    obtain rfl | rfl | rfl | rfl | rfl | rfl := hv <;> simp

/-- Everything KEYSCHED can do (R150). -/
theorem runKeysched_cases (s : State) :
    ((8 ≤ s.klen.toNat ∧ s.klen.toNat ≤ 128) ∧ runKeysched s =
      succeed (clearKey (installTable (ksTable (keyBytes s) (8 * s.klen.toNat)) s))) ∨
    (¬(8 ≤ s.klen.toNat ∧ s.klen.toNat ≤ 128) ∧
      runKeysched s = raiseError .keySize (recordKeyLength (clearKey (destroyInstance s)))) := by
  by_cases h : 8 ≤ s.klen.toNat ∧ s.klen.toNat ≤ 128
  · exact .inl ⟨h, by simp only [runKeysched, keyLengthOk, h, and_self, decide_true, if_true]⟩
  · exact .inr ⟨h, by simp only [runKeysched, keyLengthOk, h, decide_false, Bool.false_eq_true, if_false]⟩

theorem runEncrypt_valid {s : State} (h : s.kvalid = true) : runEncrypt s = succeed (setDout (enc s.k s.din) s) := by
  simp [runEncrypt, h]

theorem runEncrypt_noKey {s : State} (h : s.kvalid = false) : runEncrypt s = raiseError .noKey s := by
  simp [runEncrypt, h]

theorem runDecrypt_valid {s : State} (h : s.kvalid = true) : runDecrypt s = succeed (setDout (dec s.k s.din) s) := by
  simp [runDecrypt, h]

theorem runDecrypt_noKey {s : State} (h : s.kvalid = false) : runDecrypt s = raiseError .noKey s := by
  simp [runDecrypt, h]

/-- Everything MemWrite can do (R62). -/
theorem memWrite_cases (a v : Byte) (s : State) :
    (∃ i, hostReg a = .key i ∧ memWrite a v s = setKeyByte i v s) ∨
    (hostReg a = .klen ∧ memWrite a v s = setKlen v s) ∨
    (hostReg a = .cmd ∧ memWrite a v s = execute v s) ∨
    (∃ i, hostReg a = .din i ∧ memWrite a v s = setDinByte i v s) ∨
    memWrite a v s = s := by
  unfold memWrite
  cases hostReg a <;> simp

/-! ### exec and step -/

@[simp] theorem exec_nop (s : State) : exec .nop s = .next s := rfl
@[simp] theorem exec_keysched (s : State) : exec .keysched s = .next (runKeysched s) := rfl
@[simp] theorem exec_encrypt (s : State) : exec .encrypt s = .next (runEncrypt s) := rfl
@[simp] theorem exec_decrypt (s : State) : exec .decrypt s = .next (runDecrypt s) := rfl
@[simp] theorem exec_sbox (s : State) : exec .sbox s = .next (runSbox s) := rfl
@[simp] theorem exec_zeroize (s : State) : exec .zeroize s = .next (runZeroize s) := rfl
@[simp] theorem exec_wr (a v : Byte) (s : State) : exec (.wr a v) s = .next (memWrite a v s) := rfl
@[simp] theorem exec_rd (a : Byte) (s : State) : exec (.rd a) s = .next (respond (memRead a s) s) := rfl

theorem step_idle {s : State} (h : s.pending = []) : step s = .next s := by
  simp [step, takeEvent, h]

theorem step_event {s : State} {e : HostEvent} {rest : List HostEvent} (h : s.pending = e :: rest) :
    step s = runEvent e { s with pending := rest } := by
  simp [step, takeEvent, h]

@[simp] theorem runEvent_reset (s : State) : runEvent .reset s = .next (resetCore s) := rfl

/-- A CMD8 code runs Execute, whether or not its byte is a command (R230). -/
@[simp] theorem runEvent_cmd8 (v : Byte) (s : State) : runEvent (.access (.cmd8 v)) s = .next (execute v s) := by
  simp only [runEvent, runAccess, decode, execute]
  cases decodeCommand v <;> rfl

/-! ### What no command and no access touches -/

@[simp] theorem runKeysched_pending (s : State) : (runKeysched s).pending = s.pending := by
  rcases runKeysched_cases s with ⟨-, h⟩ | ⟨-, h⟩ <;> simp [h]

@[simp] theorem runKeysched_readLog (s : State) : (runKeysched s).readLog = s.readLog := by
  rcases runKeysched_cases s with ⟨-, h⟩ | ⟨-, h⟩ <;> simp [h]

theorem execute_pending (v : Byte) (s : State) : (execute v s).pending = s.pending := by
  rcases execute_cases v s with ⟨-, h⟩ | ⟨-, h⟩ | ⟨-, h⟩ | ⟨-, h⟩ | ⟨-, h⟩ | ⟨-, h⟩ | ⟨-, h⟩ <;>
    cases hk : s.kvalid <;> simp [h, runEncrypt, runDecrypt, runSbox, hk]

theorem execute_readLog (v : Byte) (s : State) : (execute v s).readLog = s.readLog := by
  rcases execute_cases v s with ⟨-, h⟩ | ⟨-, h⟩ | ⟨-, h⟩ | ⟨-, h⟩ | ⟨-, h⟩ | ⟨-, h⟩ | ⟨-, h⟩ <;>
    cases hk : s.kvalid <;> simp [h, runEncrypt, runDecrypt, runSbox, hk]

theorem memWrite_pending (a v : Byte) (s : State) : (memWrite a v s).pending = s.pending := by
  rcases memWrite_cases a v s with ⟨i, -, h⟩ | ⟨-, h⟩ | ⟨-, h⟩ | ⟨i, -, h⟩ | h <;> simp [h, execute_pending]

theorem memWrite_readLog (a v : Byte) (s : State) : (memWrite a v s).readLog = s.readLog := by
  rcases memWrite_cases a v s with ⟨i, -, h⟩ | ⟨-, h⟩ | ⟨-, h⟩ | ⟨i, -, h⟩ | h <;> simp [h, execute_readLog]

end Sys2Proof.Machine
end

