-- ==== Sys2Proof/Laws/PerInstr.lean ====
section
/-! SUPPORT. Per instruction: its code has the width of its row of `spec/opcode_table.json` and agrees with the row's match under
the row's mask. -/

namespace Sys2Proof.Laws.TableRow

/-- The width in bits and the bits of a code. -/
def codeBits : Code → Nat × Nat
  | .cmd8 v => (8, v.toNat)
  | .htw w => (32, w.toNat)

/-- The width, match and mask of an instruction's row of `spec/opcode_table.json`. -/
def row : Instr → Nat × Nat × Nat
  | .nop => (8, 0x00, 0xFF)
  | .keysched => (8, 0x01, 0xFF)
  | .encrypt => (8, 0x02, 0xFF)
  | .decrypt => (8, 0x03, 0xFF)
  | .sbox => (8, 0x04, 0xFF)
  | .zeroize => (8, 0x05, 0xFF)
  | .wr _ _ => (32, 0x57000000, 0xFFFF0000)
  | .rd _ => (32, 0x52000000, 0xFFFF00FF)

def Statement (i : Instr) : Prop :=
  (codeBits (encode i)).1 = (row i).1 ∧ (codeBits (encode i)).2 &&& (row i).2.2 = (row i).2.1

theorem nop : Statement .nop := by unfold Statement; decide
theorem keysched : Statement .keysched := by unfold Statement; decide
theorem encrypt : Statement .encrypt := by unfold Statement; decide
theorem decrypt : Statement .decrypt := by unfold Statement; decide
theorem sbox : Statement .sbox := by unfold Statement; decide
theorem zeroize : Statement .zeroize := by unfold Statement; decide

/-- An HTW masked with a 32-bit mask, as numbers and as bit vectors. -/
theorem masked_eq (w m c : Htw) (h : w &&& m = c) : w.toNat &&& m.toNat = c.toNat := by
  rw [← BitVec.toNat_and, h]

theorem wr (addr data : Byte) : Statement (.wr addr data) := by
  refine ⟨rfl, masked_eq _ 0xFFFF0000#32 0x57000000#32 ?_⟩
  apply BitVec.eq_of_getLsbD_eq
  intro i hi
  simp only [BitVec.getLsbD_and, BitVec.getLsbD_append]
  by_cases h : i < 16
  · have : (0xFFFF0000#32).getLsbD i = false ∧ (0x57000000#32).getLsbD i = false := by
      interval_cases i <;> decide
    simp [this]
  · have h8 : ¬ i < 8 := by omega
    have h16 : ¬ i - 8 < 8 := by omega
    simp only [h8, h16, if_false]
    interval_cases i <;> first | omega | rfl

theorem rd (addr : Byte) : Statement (.rd addr) := by
  refine ⟨rfl, masked_eq _ 0xFFFF00FF#32 0x52000000#32 ?_⟩
  apply BitVec.eq_of_getLsbD_eq
  intro i hi
  simp only [BitVec.getLsbD_and, BitVec.getLsbD_append]
  by_cases h : 8 ≤ i ∧ i < 16
  · have : (0xFFFF00FF#32).getLsbD i = false ∧ (0x52000000#32).getLsbD i = false := by
      obtain ⟨h1, h2⟩ := h
      interval_cases i <;> decide
    simp [this]
  · interval_cases i <;> first | omega | rfl

end Sys2Proof.Laws.TableRow
end

