-- ==== Sys2Proof/Laws/Step.lean ====
section
/-! SUPPORT. What a step can do, said once. -/

namespace Sys2Proof.Machine

/-- The four fields of a host transaction word, put together again. -/
theorem htw_fields (w : Htw) : htwType w ++ htwZero w ++ htwAddr w ++ htwData w = w := by
  apply BitVec.eq_of_getLsbD_eq
  intro i hi
  simp only [htwType, htwZero, htwAddr, htwData, BitVec.getLsbD_append, BitVec.getLsbD_extractLsb']
  interval_cases i <;> simp

/-- The fields of four bytes put together (R95). -/
theorem htw_of_bytes (a b c d : Byte) :
    htwType (a ++ b ++ c ++ d) = a ∧ htwZero (a ++ b ++ c ++ d) = b ∧
    htwAddr (a ++ b ++ c ++ d) = c ∧ htwData (a ++ b ++ c ++ d) = d := by
  simp only [htwType, htwZero, htwAddr, htwData]
  refine ⟨?_, ?_, ?_, ?_⟩ <;>
    (apply BitVec.eq_of_getLsbD_eq; intro i hi
     simp only [BitVec.getLsbD_extractLsb', BitVec.getLsbD_append]
     interval_cases i <;> simp)

theorem decodeHtw_wr {w : Htw} {a v : Byte} (h : decodeHtw w = .ok (.wr a v)) : w = 0x5700#16 ++ a ++ v := by
  have hw := htw_fields w
  unfold decodeHtw at h
  repeat' split at h
  all_goals first | cases h
  rename_i ht hz
  rw [ht, hz] at hw
  exact hw.symm

theorem decodeHtw_rd {w : Htw} {a : Byte} (h : decodeHtw w = .ok (.rd a)) : w = 0x5200#16 ++ a ++ 0x00#8 := by
  have hw := htw_fields w
  unfold decodeHtw at h
  repeat' split at h
  all_goals first | cases h
  rename_i ht hz hd
  rw [ht, hz, hd] at hw
  exact hw.symm

/-- A host transaction word is a write, a read, or no transaction (R95). -/
theorem decodeHtw_cases (w : Htw) :
    (∃ a v, decodeHtw w = .ok (.wr a v)) ∨ (∃ a, decodeHtw w = .ok (.rd a)) ∨
    (∃ err, decodeHtw w = .error err ∧ err ≠ .illegalCommand) := by
  unfold decodeHtw
  repeat' split
  all_goals first
    | exact .inl ⟨_, _, rfl⟩
    | exact .inr (.inl ⟨_, rfl⟩)
    | exact .inr (.inr ⟨_, rfl, by simp⟩)

/-- A word that is no transaction is refused (R95). -/
theorem runAccess_refused {w : Htw} {err : DecodeError} (h : decodeHtw w = .error err) (hne : err ≠ .illegalCommand)
    (s : State) : ∃ why, runAccess (.htw w) s = .refused why := by
  simp only [runAccess, decode, h]
  cases err <;> first | exact absurd rfl hne | exact ⟨_, rfl⟩

theorem runEvent_write (a v : Byte) (s : State) :
    runEvent (.access (.htw (0x5700#16 ++ a ++ v))) s = .next (memWrite a v s) := by
  obtain ⟨h1, h2, h3, h4⟩ := htw_of_bytes 0x57#8 0x00#8 a v
  have h : decodeHtw (0x5700#16 ++ a ++ v) = .ok (.wr a v) := by
    show decodeHtw (0x57#8 ++ 0x00#8 ++ a ++ v) = _
    unfold decodeHtw
    rw [h1, h2, h3, h4]
    rfl
  simp only [runEvent, runAccess, decode, h, exec_wr]

theorem runEvent_read (a : Byte) (s : State) :
    runEvent (.access (.htw (0x5200#16 ++ a ++ 0x00#8))) s = .next (respond (memRead a s) s) := by
  obtain ⟨h1, h2, h3, h4⟩ := htw_of_bytes 0x52#8 0x00#8 a 0x00#8
  have h : decodeHtw (0x5200#16 ++ a ++ 0x00#8) = .ok (.rd a) := by
    show decodeHtw (0x52#8 ++ 0x00#8 ++ a ++ 0x00#8) = _
    unfold decodeHtw
    rw [h1, h2, h3, h4]
    rfl
  simp only [runEvent, runAccess, decode, h, exec_rd]

/-- Serving a command in either code form runs Execute (R32, R230). -/
theorem runEvent_command {e : HostEvent} {v : Byte} (h : RunsCommand e v) (s : State) :
    runEvent e s = .next (execute v s) := by
  rcases h with rfl | rfl
  · exact runEvent_cmd8 v s
  · exact (runEvent_write 0x81 v s).trans (by simp [memWrite])

/-- Everything serving one event can do when it answers a next state. -/
theorem runEvent_cases {e : HostEvent} {s t : State} (h : runEvent e s = .next t) :
    (e = .reset ∧ t = resetCore s) ∨ (∃ v, RunsCommand e v ∧ t = execute v s) ∨
    (∃ a v, a ≠ 0x81 ∧ HostWrites e a v ∧ t = memWrite a v s) ∨
    (∃ a, e = .access (.htw (0x5200#16 ++ a ++ 0x00#8)) ∧ t = respond (memRead a s) s) := by
  rcases e with c | _
  · rcases c with v | w
    · exact .inr (.inl ⟨v, .inl rfl, by simpa using h.symm⟩)
    · rcases decodeHtw_cases w with ⟨a, v, hw⟩ | ⟨a, hw⟩ | ⟨err, hw, hne⟩
      · have e := decodeHtw_wr hw
        subst e
        rw [runEvent_write] at h
        cases h
        by_cases ha : a = 0x81
        · subst ha
          exact .inr (.inl ⟨v, .inr rfl, by simp [memWrite]⟩)
        · exact .inr (.inr (.inl ⟨a, v, ha, rfl, rfl⟩))
      · have e := decodeHtw_rd hw
        subst e
        rw [runEvent_read] at h
        cases h
        exact .inr (.inr (.inr ⟨a, rfl, rfl⟩))
      · obtain ⟨why, hr⟩ := runAccess_refused hw hne s
        exact absurd (h.symm.trans hr) (by simp)
  · exact .inl ⟨rfl, by simpa using h.symm⟩

/-- Everything a step can do when it answers a next state: nothing was issued, or the first event was served with it taken off. -/
theorem step_cases {s t : State} (h : step s = .next t) :
    (s.pending = [] ∧ t = s) ∨
    ∃ e rest, s.pending = e :: rest ∧ runEvent e { s with pending := rest } = .next t := by
  cases hp : s.pending with
  | nil =>
    rw [step_idle hp] at h
    exact .inl ⟨rfl, by cases h; rfl⟩
  | cons e rest =>
    rw [step_event hp] at h
    exact .inr ⟨e, rest, rfl, h⟩

/-- A step takes the first issued event off. -/
theorem step_pending {s t : State} (h : step s = .next t) : t.pending = s.pending.drop 1 := by
  rcases step_cases h with ⟨hp, rfl⟩ | ⟨e, rest, hp, hr⟩
  · simp [hp]
  · rw [hp]
    rcases runEvent_cases hr with ⟨-, rfl⟩ | ⟨v, -, rfl⟩ | ⟨a, v, -, -, rfl⟩ | ⟨a, -, rfl⟩ <;>
      simp [execute_pending, memWrite_pending]

/-! ### Runs -/

theorem run_zero (s : State) : core.run 0 s = .next s := rfl

theorem run_step {s t : State} (n : Nat) (h : step s = .next t) : core.run (n + 1) s = core.run n t := by
  have h' : core.step s = .next t := h
  simp only [Host.Core.run, h']

/-- A run of n + 1 steps that answers a next state begins with a step that does. -/
theorem run_succ {s t : State} {n : Nat} (h : core.run (n + 1) s = .next t) :
    ∃ u, step s = .next u ∧ core.run n u = .next t := by
  cases hs : step s with
  | next u => exact ⟨u, rfl, (run_step n hs).symm.trans h⟩
  | fault r => cases r
  | refused r =>
    have h' : core.step s = .refused r := hs
    simp only [Host.Core.run, h'] at h
    cases h

end Sys2Proof.Machine
end

