-- ==== Sys2Proof/Tests/Slice0.lean ====
section
/-! SUPPORT. The model's own tests: smoke tests of WellFormed, decoding of written-out words, single steps with results taken from
`spec/95_test_vectors.md` and the rules' examples, and a witness for the hypotheses of each statement. -/

namespace Sys2Proof.Tests

open Sys2Proof.Machine

/-- The outcome is a next state of which p holds. -/
def nextIs (o : Host.Outcome State Fault Refusal) (p : State → Bool) : Bool :=
  match o with
  | .next t => p t
  | .fault _ => false
  | .refused _ => false

/-- The outcome is this refusal. -/
def refusedAs (o : Host.Outcome State Fault Refusal) (r : Refusal) : Bool :=
  match o with
  | .next _ => false
  | .fault _ => false
  | .refused q => q == r

/-- Reset with these first key bytes and their number in KLEN. -/
def keyed (bs : List Byte) : State :=
  { State.reset with key := ksLoad bs (Vector.replicate 128 0), klen := BitVec.ofNat 8 bs.length }

/-- Reset with the table of this key installed and this block in DIN. -/
def scheduled (bs : List Byte) (p : Block) : State :=
  { State.reset with k := ksTable bs (8 * bs.length), kvalid := true, klen := BitVec.ofNat 8 bs.length, din := p }

/-- Reset with KLEN set. -/
def withKlen (n : Byte) : State := { State.reset with klen := n }

/-- Reset with these events issued. -/
def issued (es : List HostEvent) : State := { State.reset with pending := es }

def zeroKey : List Byte := List.replicate 8 0
def countKey : List Byte := [0x01, 0x02, 0x03, 0x04, 0x05, 0x06, 0x07, 0x08]
def kat4Key : List Byte :=
  [0x88, 0xBC, 0xA9, 0x0E, 0x90, 0x87, 0x5A, 0x7F, 0x0F, 0x79, 0xC3, 0x84, 0x62, 0x7B, 0xAF, 0xB2]
def zeroBlock : Block := Vector.replicate 8 0

/-- Ksyn of `95_test_vectors.md`: K[i] = 0x0101 × i. -/
def ksyn : SubkeyTable := Vector.ofFn fun i => BitVec.ofNat 16 (0x0101 * i)

/-- Reset with Ksyn as an installed table. -/
def synthetic : State := { State.reset with k := ksyn, kvalid := true, klen := 0x08 }

/-! ### WellFormed: an ill-formed code for each check, and well-formed ones beside it -/

theorem test_wf_reserved_bits : (Code.cmd8 0x09).wf = false := by decide
theorem test_wf_unassigned_op : (Code.cmd8 0x06).wf = false := by decide
theorem test_wf_unknown_type : (Code.htw 0x58008102).wf = false := by decide
theorem test_wf_zero_field : (Code.htw 0x57018102).wf = false := by decide
theorem test_wf_read_data : (Code.htw 0x52008201).wf = false := by decide
theorem test_wf_good : ((Code.cmd8 0x05).wf && (Code.htw 0x57FF00FF).wf == false && (Code.htw 0x5700FFFF).wf
    && (Code.htw 0x5200FF00).wf) = true := by decide

/-! ### Decoding: words from the encodings of R92 and R95 (`30_encoding.md`; the last two are its examples) -/

theorem test_decode_nop : decode (.cmd8 0b00000000) = .ok .nop := by decide
theorem test_decode_keysched : decode (.cmd8 0b00000001) = .ok .keysched := by decide
theorem test_decode_encrypt : decode (.cmd8 0b00000010) = .ok .encrypt := by decide
theorem test_decode_decrypt : decode (.cmd8 0b00000011) = .ok .decrypt := by decide
theorem test_decode_sbox : decode (.cmd8 0b00000100) = .ok .sbox := by decide
theorem test_decode_zeroize : decode (.cmd8 0b00000101) = .ok .zeroize := by decide
theorem test_decode_wr : decode (.htw 0b01010111000000001000000100000010) = .ok (.wr 0x81 0x02) := by decide
theorem test_decode_rd : decode (.htw 0b01010010000000001000001000000000) = .ok (.rd 0x82) := by decide
theorem test_decode_illegal : decode (.cmd8 0x08) = .error .illegalCommand := by decide
theorem test_decode_table_words : decodeTableWord 8 0x04 = some .sbox ∧ decodeTableWord 32 0x52000000 = some (.rd 0x00)
    ∧ decodeTableWord 32 0x57000000 = some (.wr 0x00 0x00) ∧ decodeTableWord 8 0x06 = none := by decide

/-- R95: each ill-formed word is refused under its own name. -/
theorem test_refusals : (refusedAs (step (issued [.access (.htw 0x58008102)])) .unknownType
    && refusedAs (step (issued [.access (.htw 0x57018102)])) .nonzeroField
    && refusedAs (step (issued [.access (.htw 0x52008201)])) .nonzeroReadData) = true := by decide +kernel

/-! ### Single steps -/

/-- 95 section 2.7 row 3: NOP keeps STATUS = 0x0A. -/
theorem test_nop_keeps_error :
    nextIs (exec .nop { State.reset with ecode := .noKey }) (fun t => memRead 0x82 t == 0x0A) = true := by decide +kernel

/-- 95 section 2.2.5: the table of a key whose schedule reads PI[0xD7] and PI[0xF1]. -/
theorem test_keysched_table :
    nextIs (exec .keysched (keyed countKey)) (fun t => t.k.toList ==
      [0x6B1C, 0x2036, 0x3838, 0x81AD, 0x0B2C, 0xC29A, 0x4CD9, 0x017E,
       0xADDC, 0x79E3, 0x674C, 0x0610, 0x1CE2, 0x47BD, 0xDC7E, 0x9ACD,
       0xFAC1, 0x8D77, 0x82CD, 0xE074, 0xB504, 0xE67A, 0x4B6C, 0xA577,
       0x7C29, 0xBE51, 0xEF86, 0xDC52, 0xE0B6, 0xD31B, 0x27DB, 0xF959] ++
      [0xBABE, 0x0B30, 0x31D5, 0xBCDB, 0xFEEF, 0xE250, 0x644B, 0x834E,
       0xAC8B, 0x9649, 0x54FC, 0x98BD, 0xC2B1, 0x6C00, 0xFDEC, 0x72A8,
       0xA02F, 0x21BD, 0xA262, 0xA5A4, 0xB0DB, 0x5811, 0xBBBA, 0x2E3B,
       0xF642, 0x6629, 0xD375, 0xAD7A, 0x5AAE, 0x08AC, 0xAA82, 0x511A]
      && t.key.toList.all (· == 0) && memRead 0x82 t == 0x01) = true := by decide +kernel

/-- 95 section 2.2.8, KLEN = 0x81 after a successful schedule: the instance is destroyed. -/
theorem test_keysched_129 :
    nextIs (exec .keysched { synthetic with klen := 0x81 }) (fun t => memRead 0x82 t == 0x06
      && memRead 0x83 t == 0x81 && t.k.toList.all (· == 0) && memRead 0x80 t == 0x81) = true := by decide +kernel

/-- 95 section 1, KAT1. -/
theorem test_encrypt_kat1 :
    nextIs (exec .encrypt (scheduled zeroKey zeroBlock)) (fun t => t.dout.toList ==
      [0xEB, 0xB7, 0x73, 0xF9, 0x93, 0x27, 0x8E, 0xFF] && memRead 0x82 t == 0x01) = true := by decide +kernel

/-- 95 section 2.3, row 11. -/
theorem test_encrypt_asymmetric :
    nextIs (exec .encrypt (scheduled countKey #v[0x01, 0x23, 0x45, 0x67, 0x89, 0xAB, 0xCD, 0xEF])) (fun t => t.dout.toList ==
      [0xE1, 0xB4, 0xB7, 0x42, 0x1F, 0x0F, 0x5E, 0x1E]) = true := by decide +kernel

/-- 95 section 1, KAT4 backwards. -/
theorem test_decrypt_kat4 :
    nextIs (exec .decrypt (scheduled kat4Key #v[0x22, 0x69, 0x55, 0x2A, 0xB0, 0xF8, 0x5C, 0xA6])) (fun t =>
      t.dout == zeroBlock && memRead 0x82 t == 0x01) = true := by decide +kernel

/-- 95 section 2.7 row 2: DECRYPT with no instance. -/
theorem test_decrypt_no_key :
    nextIs (exec .decrypt { State.reset with dout := #v[1, 2, 3, 4, 5, 6, 7, 8] }) (fun t =>
      memRead 0x82 t == 0x0A && t.dout == #v[1, 2, 3, 4, 5, 6, 7, 8]) = true := by decide +kernel

/-- 95 section 2.1, rows 1 and 5. -/
theorem test_sbox_d7 :
    nextIs (exec .sbox { State.reset with din := #v[0xD7, 0x11, 0x11, 0x11, 0x11, 0x11, 0x11, 0x11] }) (fun t =>
      t.dout == #v[0x2C, 0, 0, 0, 0, 0, 0, 0] && memRead 0x82 t == 0x00) = true := by decide +kernel
theorem test_sbox_clears_error :
    nextIs (exec .sbox { State.reset with ecode := .noKey, din := #v[0xF1, 0x11, 0x11, 0x11, 0x11, 0x11, 0x11, 0x11] })
      (fun t => t.dout == #v[0xF3, 0, 0, 0, 0, 0, 0, 0] && memRead 0x82 t == 0x00) = true := by decide +kernel

/-- 95 section 2.7, last row. -/
theorem test_zeroize :
    nextIs (exec .zeroize synthetic) (fun t => t == State.reset) = true := by decide +kernel

/-- 95 section 2.7 rows 9 and 11: KEY is write-only; a write to DOUT is ignored. -/
theorem test_wr_key_is_write_only :
    nextIs (exec (.wr 0x05 0x42) State.reset) (fun t => t.key.toList[5]? == some 0x42 && memRead 0x05 t == 0x00) = true := by
  decide +kernel
theorem test_wr_read_only_ignored :
    nextIs (exec (.wr 0x90 0x77) State.reset) (fun t => t == State.reset) = true := by decide +kernel

/-- 95 section 2.7 row 10 and R63: BLKSIZE, and the last byte of DIN. -/
theorem test_rd_blksize : nextIs (exec (.rd 0x84) State.reset) (fun t => t.readLog == [0x08]) = true := by decide +kernel
theorem test_rd_din_last :
    nextIs (exec (.rd 0x8F) { State.reset with din := #v[1, 2, 3, 4, 5, 6, 7, 8] }) (fun t => t.readLog == [8]) = true := by
  decide +kernel

/-- 95 section 2.7 rows 4 and 5: BADCMD, without and with an instance. -/
theorem test_illegal_command :
    (nextIs (step (issued [.access (.cmd8 0x08)])) (fun t => memRead 0x82 t == 0x0E)
      && nextIs (exec (.wr 0x81 0xFF) { State.reset with kvalid := true }) (fun t => memRead 0x82 t == 0x0F)) = true := by
  decide +kernel

/-- R280: the reset input, between accesses. -/
theorem test_reset_event :
    nextIs (step { synthetic with pending := [.reset], readLog := [0xAA] })
      (fun t => t == { State.reset with readLog := [0xAA] }) = true := by decide +kernel

/-! ### Datapath (95 sections 2.2.7 and 2.4) -/

/-- T1 = 1 with the zero key: all 64 entries are 0xD9D9. -/
theorem test_ks_t1_1 : ks zeroKey 1 = some (Vector.replicate 64 0xD9D9) := by decide +kernel
theorem test_rotations : rotl16 0xA5A5 3 = 0x2D2D ∧ rotr16 0xA5A5 3 = 0xB4B4 ∧ rotl16 0xF800 5 = 0x001F := by decide
theorem test_mix_wraps : mix ksyn ⟨#v[0xFFFF, 0xFFFF, 0xFFFF, 0xFFFF], 60⟩ = ⟨#v[0x7874, 0xF4EC, 0xCDA5, 0x8646], 0⟩ := by
  decide +kernel
theorem test_mash_indices : mash ksyn ⟨#v[0x0040, 0x0041, 0xFFFF, 0x003F], 7⟩ = ⟨#v[0x3F7F, 0x3F80, 0xFFFF, 0x3F7E], 7⟩ := by
  decide +kernel
theorem test_rmix : rmix ksyn ⟨#v[0x080E, 0x1430, 0x3068, 0xE623], 7⟩ = ⟨#v[0x0001, 0x0002, 0x0003, 0x0004], 3⟩ := by
  decide +kernel
theorem test_rmash : rmash ksyn ⟨#v[0x4264, 0x7A9C, 0xB6D8, 0xF708], 7⟩ = ⟨#v[0x1234, 0x5678, 0x9ABC, 0xDEF0], 7⟩ := by
  decide +kernel

/-! ### Witnesses: states and operands that meet the hypotheses of each statement, clause by clause at boundary values -/

theorem witness_EncodeOfDecode : decode (.htw 0x57008102) = .ok (.wr 0x81 0x02) := by decide
theorem witness_TransactionWordDecoding :
    ((0x57008102 : Htw).extractLsb' 24 8 = 0x57 ∧ (0x57008102 : Htw).extractLsb' 16 8 = 0x00) ∧
    ((0x5200FF00 : Htw).extractLsb' 24 8 = 0x52 ∧ (0x5200FF00 : Htw).extractLsb' 16 8 = 0x00 ∧
      (0x5200FF00 : Htw).extractLsb' 0 8 = 0x00) ∧
    ¬((0x52000001 : Htw).extractLsb' 24 8 = 0x57 ∧ (0x52000001 : Htw).extractLsb' 16 8 = 0x00) ∧
    ¬((0x52000001 : Htw).extractLsb' 24 8 = 0x52 ∧ (0x52000001 : Htw).extractLsb' 16 8 = 0x00 ∧
      (0x52000001 : Htw).extractLsb' 0 8 = 0x00) ∧
    (issued [.access (.htw 0x52000001)]).pending = [.access (.htw 0x52000001)] := by decide
theorem witness_StepRunsDecodedInstruction :
    (issued [.access (.cmd8 0x04), .reset]).pending = .access (.cmd8 0x04) :: [.reset] ∧
    decode (.cmd8 0x04) = .ok .sbox ∧ decodeTableWord 32 0x5700FFFF = some (.wr 0xFF 0xFF) ∧ State.reset.pending = [] := by
  decide
theorem witness_CmdWriteRunsTheCommand : encode .zeroize = .cmd8 0x05 := by decide
theorem witness_HostWriteEffects :
    (0x82 ≤ (0x82 : Byte).toNat ∧ (0x82 : Byte).toNat ≤ 0x87) ∧ (0x82 ≤ (0x87 : Byte).toNat ∧ (0x87 : Byte).toNat ≤ 0x87) ∧
    0x90 ≤ (0x90 : Byte).toNat ∧ 0x90 ≤ (0xFF : Byte).toNat := by decide
theorem witness_HostReadValues :
    (0x00 : Byte).toNat ≤ 0x7F ∧ (0x7F : Byte).toNat ≤ 0x7F ∧
    (0x85 ≤ (0x85 : Byte).toNat ∧ (0x85 : Byte).toNat ≤ 0x87) ∧ (0x85 ≤ (0x87 : Byte).toNat ∧ (0x87 : Byte).toNat ≤ 0x87) ∧
    0x98 ≤ (0x98 : Byte).toNat ∧ 0x98 ≤ (0xFF : Byte).toNat := by decide
theorem witness_WriteLeavesOtherAddresses :
    (0x80 : Byte) ≠ 0x81 ∧ (0x82 : Byte) ≠ 0x80 ∧ (0x80 : Byte) = 0x80 ∧
    (0x88 ≤ (0x88 : Byte).toNat ∧ (0x88 : Byte).toNat ≤ 0x8F) ∧ (0x88 ≤ (0x8F : Byte).toNat ∧ (0x8F : Byte).toNat ≤ 0x8F) := by
  decide
theorem witness_RepeatedAccessesChangeNothing : (0x88 : Byte) ≠ 0x81 ∧ Instr.sbox = .sbox := by decide

/-- Legal lengths at both ends of the range, and illegal ones beside them and at the ends of u8. -/
theorem witness_KeyschedEffect :
    LegalKeyLength (withKlen 0x08).klen.toNat ∧ LegalKeyLength (withKlen 0x80).klen.toNat ∧
    ¬LegalKeyLength (withKlen 0x07).klen.toNat ∧ ¬LegalKeyLength (withKlen 0x81).klen.toNat ∧
    ¬LegalKeyLength (withKlen 0x00).klen.toNat ∧ ¬LegalKeyLength (withKlen 0xFF).klen.toNat := by
  unfold LegalKeyLength; decide
theorem witness_EncryptEffect : (scheduled zeroKey zeroBlock).kvalid = true ∧ State.reset.kvalid = false := by decide
theorem witness_DecryptEffect : (scheduled kat4Key zeroBlock).kvalid = true ∧ State.reset.kvalid = false := by decide
theorem witness_IllegalCommandEffect :
    0x06 ≤ (0x06 : Byte).toNat ∧ 0x06 ≤ (0xFF : Byte).toNat ∧
    (issued [.access (.cmd8 0xFF)]).pending = [.access (.cmd8 0xFF)] := by decide
theorem witness_CommandFrame :
    exec .keysched State.reset = .next (runKeysched State.reset) ∧ exec .encrypt State.reset = .next (runEncrypt State.reset) ∧
    exec .decrypt State.reset = .next (runDecrypt State.reset) ∧ exec .sbox State.reset = .next (runSbox State.reset) ∧
    (0x06 ≤ (0x06 : Byte).toNat ∧ exec (.wr 0x81 0x06) State.reset = .next (memWrite 0x81 0x06 State.reset)) ∧
    exec (.rd 0x82) State.reset = .next (respond (memRead 0x82 State.reset) State.reset) ∧
    ((0x8F : Byte) ≠ 0x82 ∧ ¬(0x90 ≤ (0x8F : Byte).toNat ∧ (0x8F : Byte).toNat ≤ 0x97)) ∧
    ((0x98 : Byte) ≠ 0x82 ∧ ¬(0x90 ≤ (0x98 : Byte).toNat ∧ (0x98 : Byte).toNat ≤ 0x97)) :=
  ⟨rfl, rfl, rfl, rfl, ⟨by decide, rfl⟩, rfl, by decide, by decide⟩
theorem witness_PiIsBijection : pi 0xD1 = pi 0xD1 := rfl
theorem witness_KsDerivedParameters : 1 ≤ 1 ∧ 1 ≤ 1024 ∧ 1024 ≤ 1024 ∧ 0 < 8 ∧ 7 < 8 := by decide
theorem witness_KsLoadAndForward :
    (countKey.length ≤ 128 ∧ 0 < countKey.length ∧ 7 < countKey.length ∧ countKey.length ≤ 127 ∧ 127 < 128) ∧
    (1 ≤ 1 ∧ 1 ≤ 128 ∧ 0 < 1 ∧ 1 ≤ 127) ∧ (1 ≤ 128 ∧ 128 ≤ 128 ∧ 127 < 128) := by decide
theorem witness_KsTruncation : (1 ≤ 1 ∧ 1 ≤ 128) ∧ (1 ≤ 128 ∧ 128 ≤ 128 ∧ 127 < 128 ∧ 127 ≠ 128 - 128) := by decide
theorem witness_KsBackward :
    (1 ≤ 1 ∧ 1 ≤ 128 ∧ 126 + 1 ≤ 127 ∧ 128 ≤ 127 + 1 ∧ 127 < 128) ∧ (1 ≤ 128 ∧ 128 ≤ 0 + 128 ∧ 0 < 128) := by decide
theorem witness_KsRunsItsSteps :
    (LegalKeyLength zeroKey.length ∧ 1 ≤ 1 ∧ 1 ≤ 1024) ∧ (LegalKeyLength zeroKey.length ∧ 1 ≤ 1024 ∧ 1024 ≤ 1024) ∧
    ¬(LegalKeyLength zeroKey.length ∧ 1 ≤ 0 ∧ 0 ≤ 1024) ∧ ¬(LegalKeyLength zeroKey.length ∧ 1 ≤ 1025 ∧ 1025 ≤ 1024) := by
  unfold LegalKeyLength; decide

/-- Two states whose keys differ only beyond KLEN. -/
theorem witness_KeyschedReadsOnlyTheKey :
    LegalKeyLength (keyed zeroKey).klen.toNat ∧
    (setKeyByte 8 0xFF (keyed zeroKey)).klen = (keyed zeroKey).klen ∧
    (∀ i : Fin 128, i.val < (keyed zeroKey).klen.toNat → (setKeyByte 8 0xFF (keyed zeroKey)).key[i] = (keyed zeroKey).key[i]) ∧
    setKeyByte 8 0xFF (keyed zeroKey) ≠ keyed zeroKey := by
  unfold LegalKeyLength; decide +kernel
theorem witness_RekeyWithoutKeyBytes : LegalKeyLength (keyed countKey).klen.toNat := by
  unfold LegalKeyLength; decide
theorem witness_RotationsAreInverse : (5 = 1 ∨ 5 = 2 ∨ 5 = 3 ∨ 5 = 5) ∧ 15 < 16 := by decide
theorem witness_DecryptInvertsEncrypt : LegalKeyLength (keyed kat4Key).klen.toNat := by
  unfold LegalKeyLength; decide
theorem witness_EncryptionIsPermutation : enc ksyn zeroBlock = enc ksyn zeroBlock := rfl

/-- The state KEYSCHED leaves for the zero key meets the invariant, with an instance, and a step from it answers. -/
theorem witness_InstanceInvariantKept :
    (scheduled zeroKey zeroBlock).Inv ∧ (scheduled zeroKey zeroBlock).kvalid = true ∧
    step (scheduled zeroKey zeroBlock) = .next (scheduled zeroKey zeroBlock) := by
  refine ⟨⟨?_, fun _ => ⟨zeroKey, ?_⟩, ?_, ?_, ?_⟩, rfl, step_idle rfl⟩
  · exact fun h => absurd h (by decide)
  · show ks zeroKey 64 = some (ksTable zeroKey 64)
    unfold ks
    rw [if_pos (by decide)]
  · exact fun h => absurd h (by decide)
  · exact fun h => absurd h (by decide)
  · exact .inl (by decide)
theorem witness_StatusReadsOneOfSix : State.reset.Inv := by constructor <;> simp

/-- A KEYSCHED step that changes KVALID to 1. -/
theorem witness_SubkeyTableWriters :
    step { keyed zeroKey with pending := [.access (.cmd8 0x01)] } = .next (runKeysched (keyed zeroKey)) ∧
    (keyed zeroKey).kvalid = false ∧ (runKeysched (keyed zeroKey)).kvalid = true := by
  refine ⟨?_, by decide, by decide +kernel⟩
  rw [step_event rfl, runEvent_cmd8]
  rfl

/-- A KEY, a KLEN and a DIN write that change their register. -/
theorem witness_InputRegisterWriters :
    (nextIs (step (issued [.access (.htw 0x57007F01)])) (fun t => t.key != State.reset.key)
      && nextIs (step (issued [.access (.htw 0x57008001)])) (fun t => t.klen != State.reset.klen)
      && nextIs (step (issued [.access (.htw 0x57008F01)])) (fun t => t.din != State.reset.din)) = true := by decide +kernel

/-- An SBOX that changes DOUT, a KEYSCHED that changes ERRLEN and ECODE. -/
theorem witness_OutputRegisterWriters :
    (nextIs (step (issued [.access (.cmd8 0x04)])) (fun t => t.dout != State.reset.dout)
      && nextIs (step { withKlen 0x07 with pending := [.access (.cmd8 0x01)] })
        (fun t => t.errlen != State.reset.errlen && t.ecode != State.reset.ecode)) = true := by decide +kernel
theorem witness_ErrorOfEachCommand :
    ∀ v : Byte, (issued [.access (.cmd8 v)]).pending.head? = some (.access (.cmd8 v)) ∧ RunsCommand (.access (.cmd8 v)) v :=
  fun _ => ⟨rfl, .inl rfl⟩
theorem witness_ResetEventEffect : (issued [.reset]).pending = [.reset] := rfl
theorem witness_NoInstanceUntilKeysched :
    (issued [.access (.cmd8 0x02)]).kvalid = false ∧
    (∀ e ∈ (issued [.access (.cmd8 0x02)]).pending, ¬RunsCommand e 0x01) ∧
    core.run 0 (issued [.access (.cmd8 0x02)]) = .next (issued [.access (.cmd8 0x02)]) := by
  refine ⟨rfl, ?_, rfl⟩
  simp [issued, RunsCommand]
theorem witness_ReadyProgramsRun :
    (issued [.reset, .access (.cmd8 0xFF), .access (.htw 0x52008200)]).ready = true := by decide
theorem witness_OutputsStableWithoutCommands :
    (∀ e ∈ [HostEvent.access (.htw 0x52009000)], e ≠ .reset ∧ ∀ v : Byte, ¬RunsCommand e v) ∧
    core.run 1 (issued ([.access (.htw 0x52009000)] ++ [])) = .next { State.reset with readLog := [0x00] } := by
  refine ⟨?_, ?_⟩
  · intro e he
    rw [List.mem_singleton] at he
    subst he
    refine ⟨by simp, fun v h => ?_⟩
    rcases h with h | h
    · simp at h
    · revert h; revert v; decide +kernel
  · rw [run_step 0 (t := { State.reset with readLog := [0x00] }) ?_, run_zero]
    rw [issued, step_event rfl]
    exact runEvent_read 0x90 State.reset
theorem witness_OutputBlockReadsBack :
    (issued (hostEvents asmGetblk ++ [.reset])).pending = hostEvents asmGetblk ++ [.reset] := rfl
theorem witness_KeyBufferUnseen :
    (∀ e ∈ (issued [.access (.cmd8 0x02)]).pending, ¬RunsCommand e 0x01) ∧
    core.run 0 (issued [.access (.cmd8 0x02)]) = .next (issued [.access (.cmd8 0x02)]) := by
  refine ⟨?_, rfl⟩
  simp [issued, RunsCommand]
theorem witness_SubkeyTableUnseen :
    (∀ e ∈ (issued [.access (.cmd8 0x01)]).pending, ¬RunsCommand e 0x02 ∧ ¬RunsCommand e 0x03) ∧
    core.run 0 (issued [.access (.cmd8 0x01)]) = .next (issued [.access (.cmd8 0x01)]) := by
  refine ⟨?_, rfl⟩
  simp [issued, RunsCommand]
/-- The host's whole sequence for the zero key and block, with command v. -/
def sequence (v : Byte) : List HostEvent :=
  hostEvents (asmSetkey zeroKey ++ asmCommand 0x01 ++ asmRdstatus ++ asmSetblk zeroBlock ++ asmCommand v ++ asmGetblk)

/-- Both commands of the sequence. -/
theorem witness_HostSequenceGivesTheCipher :
    LegalKeyLength zeroKey.length ∧
    (((0x02 : Byte) = 0x02 ∨ (0x02 : Byte) = 0x03) ∧ (issued (sequence 0x02)).pending = sequence 0x02) ∧
    (((0x03 : Byte) = 0x02 ∨ (0x03 : Byte) = 0x03) ∧ (issued (sequence 0x03)).pending = sequence 0x03) :=
  ⟨⟨by decide, by decide⟩, ⟨.inl rfl, rfl⟩, ⟨.inr rfl, rfl⟩⟩

end Sys2Proof.Tests
end

/-! PROOFS about the state: what each event of the host port can change, the invariant of the subkey table, what STATUS reads as,
and which registers a program cannot see. -/

namespace Sys2Proof.Machine

/-! ### The register map read backwards (`20_memory.md` R61) -/

theorem le_of_hostReg_eq_key {a : Byte} {i : Fin 128} (h : hostReg a = .key i) : a.toNat ≤ 0x7F := by
  unfold hostReg at h
  repeat' split at h
  all_goals simp at h
  assumption

theorem eq_of_hostReg_eq_klen {a : Byte} (h : hostReg a = .klen) : a = 0x80 := by
  unfold hostReg at h
  repeat' split at h
  all_goals simp at h
  assumption

theorem mem_range_of_hostReg_eq_din {a : Byte} {i : Fin 8} (h : hostReg a = .din i) : 0x88 ≤ a.toNat ∧ a.toNat ≤ 0x8F := by
  unfold hostReg at h
  repeat' split at h
  all_goals simp at h
  assumption

/-- A host write to CMD is Execute (R62, R230). -/
theorem memWrite_cmd (v : Byte) (s : State) : memWrite 0x81 v s = execute v s := by simp [memWrite]

theorem memWrite_status (v : Byte) (s : State) : memWrite 0x82 v s = s := by simp [memWrite]

theorem memRead_status (s : State) : memRead 0x82 s = statusByte s := by simp [memRead]

/-! ### What each access leaves unchanged -/

/-- Every command but KEYSCHED and ZEROIZE writes at most DOUT and ECODE. -/
theorem execute_frame (v : Byte) (s : State) :
    v = 0x01 ∨ v = 0x05 ∨ ∃ b e, execute v s = raiseError e (setDout b s) := by
  rcases execute_cases v s with ⟨-, h⟩ | ⟨hv, -⟩ | ⟨-, h⟩ | ⟨-, h⟩ | ⟨-, h⟩ | ⟨hv, -⟩ | ⟨-, h⟩
  · exact .inr (.inr ⟨s.dout, s.ecode, h⟩)
  · exact .inl hv
  · cases hk : s.kvalid
    · exact .inr (.inr ⟨s.dout, .noKey, h.trans (runEncrypt_noKey hk)⟩)
    · exact .inr (.inr ⟨enc s.k s.din, .none, h.trans (runEncrypt_valid hk)⟩)
  · cases hk : s.kvalid
    · exact .inr (.inr ⟨s.dout, .noKey, h.trans (runDecrypt_noKey hk)⟩)
    · exact .inr (.inr ⟨dec s.k s.din, .none, h.trans (runDecrypt_valid hk)⟩)
  · exact .inr (.inr ⟨_, .none, h⟩)
  · exact .inr (.inl hv)
  · exact .inr (.inr ⟨s.dout, .badCmd, h⟩)

/-- What KEYSCHED leaves unchanged (R150). -/
theorem runKeysched_frame (s : State) :
    (runKeysched s).klen = s.klen ∧ (runKeysched s).din = s.din ∧ (runKeysched s).dout = s.dout := by
  rcases runKeysched_cases s with ⟨-, h⟩ | ⟨-, h⟩ <;> simp [h]

/-- KLEN and DIN have one command that writes them, ZEROIZE. -/
theorem execute_input_frame (v : Byte) (s : State) :
    v = 0x05 ∨ (execute v s).klen = s.klen ∧ (execute v s).din = s.din := by
  rcases execute_frame v s with rfl | hz | ⟨b, c, hf⟩
  · obtain ⟨hklen, hdin, -⟩ := runKeysched_frame s
    exact .inr ⟨hklen, hdin⟩
  · exact .inl hz
  · exact .inr (by simp [hf])

/-- Everything a host write outside CMD can do, by its address (R62). -/
theorem memWrite_cases_of_ne_cmd {a : Byte} (ha : a ≠ 0x81) (v : Byte) (s : State) :
    (a.toNat ≤ 0x7F ∧ ∃ i, memWrite a v s = setKeyByte i v s) ∨ (a = 0x80 ∧ memWrite a v s = setKlen v s) ∨
    ((0x88 ≤ a.toNat ∧ a.toNat ≤ 0x8F) ∧ ∃ i, memWrite a v s = setDinByte i v s) ∨ memWrite a v s = s := by
  rcases memWrite_cases a v s with ⟨i, hr, h⟩ | ⟨hr, h⟩ | ⟨hr, -⟩ | ⟨i, hr, h⟩ | h
  · exact .inl ⟨le_of_hostReg_eq_key hr, i, h⟩
  · exact .inr (.inl ⟨eq_of_hostReg_eq_klen hr, h⟩)
  · exact absurd (hostReg_eq_cmd.mp hr) ha
  · exact .inr (.inr (.inl ⟨mem_range_of_hostReg_eq_din hr, i, h⟩))
  · exact .inr (.inr (.inr h))

/-- The elements that only commands and reset write: DOUT, K, KVALID, ECODE and ERRLEN agree in two states. -/
structure SameResults (s t : State) : Prop where
  dout : t.dout = s.dout
  k : t.k = s.k
  kvalid : t.kvalid = s.kvalid
  ecode : t.ecode = s.ecode
  errlen : t.errlen = s.errlen

/-- A host write outside CMD is no command (`20_memory.md` R62, R74). -/
theorem memWrite_sameResults {a : Byte} (ha : a ≠ 0x81) (v : Byte) (s : State) : SameResults s (memWrite a v s) := by
  rcases memWrite_cases_of_ne_cmd ha v s with ⟨-, i, h⟩ | ⟨-, h⟩ | ⟨-, i, h⟩ | h <;> rw [h] <;>
    exact ⟨rfl, rfl, rfl, rfl, rfl⟩

/-- An event keeps DOUT, K, KVALID, ECODE and ERRLEN unless it is reset or a command. -/
theorem runEvent_results {e : HostEvent} {s t : State} (h : runEvent e s = .next t) :
    (e = .reset ∧ t = resetCore s) ∨ (∃ v, RunsCommand e v ∧ t = execute v s) ∨ SameResults s t := by
  rcases runEvent_cases h with hr | hc | ⟨a, v, ha, -, rfl⟩ | ⟨a, -, rfl⟩
  · exact .inl hr
  · exact .inr (.inl hc)
  · exact .inr (.inr (memWrite_sameResults ha v s))
  · exact .inr (.inr ⟨rfl, rfl, rfl, rfl, rfl⟩)

/-! ### Which events change a register -/

/-- The event that a step which changes the state has served. -/
theorem step_serves {s t : State} {P : HostEvent → Prop} (h : step s = .next t) (hne : t ≠ s)
    (hP : ∀ e rest, runEvent e { s with pending := rest } = .next t → P e) :
    ∃ e, s.pending.head? = some e ∧ P e := by
  rcases step_cases h with ⟨-, rfl⟩ | ⟨e, rest, hp, hr⟩
  · exact absurd rfl hne
  · exact ⟨e, by rw [hp]; rfl, hP e rest hr⟩

section Writers

variable {e : HostEvent} {s t : State}

/-- What a key schedule makes or fails with: K, KVALID and ERRLEN (R150). -/
theorem runEvent_schedule_writers (h : runEvent e s = .next t)
    (hne : t.k ≠ s.k ∨ t.kvalid ≠ s.kvalid ∨ t.errlen ≠ s.errlen) :
    e = .reset ∨ RunsCommand e 0x01 ∨ RunsCommand e 0x05 := by
  rcases runEvent_results h with ⟨he, -⟩ | ⟨v, hv, rfl⟩ | hs
  · exact .inl he
  · rcases execute_frame v s with rfl | rfl | ⟨b, c, hf⟩
    · exact .inr (.inl hv)
    · exact .inr (.inr hv)
    · simp [hf] at hne
  · simp [hs.k, hs.kvalid, hs.errlen] at hne

/-- Only a KEYSCHED of a legal length sets KVALID (R150). -/
theorem runEvent_sets_kvalid (h : runEvent e s = .next t) (hs : s.kvalid = false) (ht : t.kvalid = true) :
    RunsCommand e 0x01 ∧ LegalKeyLength s.klen.toNat := by
  have hne : t.kvalid ≠ s.kvalid := by rw [hs, ht]; decide
  rcases runEvent_schedule_writers h (.inr (.inl hne)) with rfl | hc | hc
  · cases h
    cases ht
  · rw [runEvent_command hc] at h
    cases h
    rcases runKeysched_cases s with ⟨hlen, -⟩ | ⟨-, hk⟩
    · exact ⟨hc, hlen⟩
    · simp [hk] at ht
  · rw [runEvent_command hc] at h
    cases h
    cases ht

theorem runEvent_key_writers (h : runEvent e s = .next t) (hne : t.key ≠ s.key) :
    e = .reset ∨ RunsCommand e 0x01 ∨ RunsCommand e 0x05 ∨ ∃ a v : Byte, a.toNat ≤ 0x7F ∧ HostWrites e a v := by
  rcases runEvent_cases h with ⟨he, -⟩ | ⟨v, hv, rfl⟩ | ⟨a, v, ha, he, rfl⟩ | ⟨a, -, rfl⟩
  · exact .inl he
  · rcases execute_frame v s with rfl | rfl | ⟨b, c, hf⟩
    · exact .inr (.inl hv)
    · exact .inr (.inr (.inl hv))
    · simp [hf] at hne
  · rcases memWrite_cases_of_ne_cmd ha v s with ⟨hkey, -⟩ | ⟨-, hw⟩ | ⟨-, i, hw⟩ | hw
    · exact .inr (.inr (.inr ⟨a, v, hkey, he⟩))
    all_goals simp [hw] at hne
  · exact absurd rfl hne

theorem runEvent_klen_writers (h : runEvent e s = .next t) (hne : t.klen ≠ s.klen) :
    e = .reset ∨ RunsCommand e 0x05 ∨ ∃ v : Byte, HostWrites e 0x80 v := by
  rcases runEvent_cases h with ⟨he, -⟩ | ⟨v, hv, rfl⟩ | ⟨a, v, ha, he, rfl⟩ | ⟨a, -, rfl⟩
  · exact .inl he
  · rcases execute_input_frame v s with rfl | ⟨hklen, -⟩
    · exact .inr (.inl hv)
    · exact absurd hklen hne
  · rcases memWrite_cases_of_ne_cmd ha v s with ⟨-, i, hw⟩ | ⟨rfl, -⟩ | ⟨-, i, hw⟩ | hw
    case inr.inl => exact .inr (.inr ⟨v, he⟩)
    all_goals simp [hw] at hne
  · exact absurd rfl hne

theorem runEvent_din_writers (h : runEvent e s = .next t) (hne : t.din ≠ s.din) :
    e = .reset ∨ RunsCommand e 0x05 ∨ ∃ a v : Byte, 0x88 ≤ a.toNat ∧ a.toNat ≤ 0x8F ∧ HostWrites e a v := by
  rcases runEvent_cases h with ⟨he, -⟩ | ⟨v, hv, rfl⟩ | ⟨a, v, ha, he, rfl⟩ | ⟨a, -, rfl⟩
  · exact .inl he
  · rcases execute_input_frame v s with rfl | ⟨-, hdin⟩
    · exact .inr (.inl hv)
    · exact absurd hdin hne
  · rcases memWrite_cases_of_ne_cmd ha v s with ⟨-, i, hw⟩ | ⟨-, hw⟩ | ⟨⟨hlo, hhi⟩, -⟩ | hw
    case inr.inr.inl => exact .inr (.inr ⟨a, v, hlo, hhi, he⟩)
    all_goals simp [hw] at hne
  · exact absurd rfl hne

theorem runEvent_dout_writers (h : runEvent e s = .next t) (hne : t.dout ≠ s.dout) :
    e = .reset ∨ RunsCommand e 0x02 ∨ RunsCommand e 0x03 ∨ RunsCommand e 0x04 ∨ RunsCommand e 0x05 := by
  rcases runEvent_results h with ⟨he, -⟩ | ⟨v, hv, rfl⟩ | hs
  · exact .inl he
  · rcases execute_cases v s with ⟨-, hx⟩ | ⟨-, hx⟩ | ⟨rfl, -⟩ | ⟨rfl, -⟩ | ⟨rfl, -⟩ | ⟨rfl, -⟩ | ⟨-, hx⟩
    · simp [hx] at hne
    · simp [hx, runKeysched_frame] at hne
    · exact .inr (.inl hv)
    · exact .inr (.inr (.inl hv))
    · exact .inr (.inr (.inr (.inl hv)))
    · exact .inr (.inr (.inr (.inr hv)))
    · simp [hx] at hne
  · exact absurd hs.dout hne

theorem runEvent_ecode_writers (h : runEvent e s = .next t) (hne : t.ecode ≠ s.ecode) :
    e = .reset ∨ ∃ v : Byte, v ≠ 0x00 ∧ RunsCommand e v := by
  rcases runEvent_results h with ⟨he, -⟩ | ⟨v, hv, rfl⟩ | hs
  · exact .inl he
  · refine .inr ⟨v, fun h0 => hne ?_, hv⟩
    subst h0
    rfl
  · exact absurd hs.ecode hne

end Writers

/-- Settles O46, from the events that write K and KVALID. -/
theorem subkeyTableWriters : Obligations.SubkeyTableWriters := by
  intro s t h
  refine ⟨fun hne => step_serves h ?_ fun e rest hr => runEvent_schedule_writers hr (hne.imp_right .inl),
    fun hs ht => step_serves h ?_ fun e rest hr => runEvent_sets_kvalid (s := { s with pending := rest }) hr hs ht⟩
  · rintro rfl
    simp at hne
  · rintro rfl
    simp [hs] at ht

/-- Settles O47, from the events that write KEY, KLEN and DIN. -/
theorem inputRegisterWriters : Obligations.InputRegisterWriters := by
  intro s t h
  refine ⟨fun hne => step_serves h ?_ fun e rest hr => runEvent_key_writers hr hne,
    fun hne => step_serves h ?_ fun e rest hr => runEvent_klen_writers hr hne,
    fun hne => step_serves h ?_ fun e rest hr => runEvent_din_writers hr hne⟩
  all_goals exact fun e => hne (e ▸ rfl)

/-- Settles O48, from the events that write DOUT, ERRLEN and ECODE. -/
theorem outputRegisterWriters : Obligations.OutputRegisterWriters := by
  intro s t h
  refine ⟨fun hne => step_serves h ?_ fun e rest hr => runEvent_dout_writers hr hne,
    fun hne => step_serves h ?_ fun e rest hr => runEvent_schedule_writers hr (.inr (.inr hne)),
    fun hne => step_serves h ?_ fun e rest hr => runEvent_ecode_writers hr hne⟩
  all_goals exact fun e => hne (e ▸ rfl)

/-! ### The invariant of the subkey table and the error reports -/

namespace State.Inv

variable {s t : State}

/-- The invariant speaks only of elements that commands and reset write. -/
theorem of_sameResults (h : s.Inv) (hs : SameResults s t) : t.Inv where
  noInstance := by rw [hs.kvalid, hs.k]; exact h.noInstance
  hasTable := by rw [hs.kvalid, hs.k]; exact h.hasTable
  noKeyReport := by rw [hs.ecode, hs.kvalid]; exact h.noKeyReport
  keySizeReport := by rw [hs.ecode, hs.kvalid]; exact h.keySizeReport
  errlenOutside := by rw [hs.errlen]; exact h.errlenOutside

/-- With KVALID = 0 any error may be reported. -/
theorem of_noInstance (hv : t.kvalid = false) (hk : t.k = Vector.replicate 64 0)
    (he : t.errlen.toNat < 8 ∨ 128 < t.errlen.toNat) : t.Inv where
  noInstance _ := hk
  hasTable h := absurd h (by simp [hv])
  noKeyReport _ := hv
  keySizeReport _ := hv
  errlenOutside := he

/-- A state whose K is the table of a legal key may report NONE. -/
theorem of_table {key : List Byte} (hv : t.kvalid = true) (hk : ks key (8 * key.length) = some t.k)
    (he : t.ecode = .none) (herr : t.errlen.toNat < 8 ∨ 128 < t.errlen.toNat) : t.Inv where
  noInstance h := absurd h (by simp [hv])
  hasTable _ := ⟨key, hk⟩
  noKeyReport h := absurd h (by simp [he])
  keySizeReport h := absurd h (by simp [he])
  errlenOutside := herr

/-- A command that writes only DOUT and ECODE keeps the invariant if it reports no NOKEY and no KEYSIZE while KVALID = 1. -/
theorem raiseError_setDout (h : s.Inv) (b : Block) {e : Ecode} (he : s.kvalid = true → e ≠ .noKey ∧ e ≠ .keySize) :
    (raiseError e (setDout b s)).Inv where
  noInstance := h.noInstance
  hasTable := h.hasTable
  noKeyReport hn := by
    by_contra hv
    exact (he (by simpa using hv)).1 hn
  keySizeReport hn := by
    by_contra hv
    exact (he (by simpa using hv)).2 hn
  errlenOutside := h.errlenOutside

end State.Inv

/-- KEYSCHED reads exactly KLEN bytes when KLEN is legal (R150). -/
theorem keyBytes_length {s : State} (h : s.klen.toNat ≤ 128) : (keyBytes s).length = s.klen.toNat := by
  simp [keyBytes, h]

theorem ks_keyBytes {s : State} (h : 8 ≤ s.klen.toNat ∧ s.klen.toNat ≤ 128) :
    ks (keyBytes s) (8 * (keyBytes s).length) = some (ksTable (keyBytes s) (8 * s.klen.toNat)) := by
  rw [keyBytes_length h.2, ks, keyBytes_length h.2, if_pos (by omega)]

theorem runKeysched_inv {s : State} (h : s.Inv) : (runKeysched s).Inv := by
  rcases runKeysched_cases s with ⟨hlen, hr⟩ | ⟨hlen, hr⟩ <;> rw [hr]
  · exact .of_table (key := keyBytes s) rfl
      (by rw [ks_keyBytes hlen, succeed_k, clearKey_k, installTable_k]) rfl (by simpa using h.errlenOutside)
  · have hout : s.klen.toNat < 8 ∨ 128 < s.klen.toNat := by omega
    exact .of_noInstance rfl rfl (by simpa using hout)

/-- Every CMD byte keeps the invariant: ENCRYPT and DECRYPT report NOKEY only while KVALID = 0 (R175, R204). -/
theorem execute_inv {s : State} (h : s.Inv) (v : Byte) : (execute v s).Inv := by
  rcases execute_cases v s with ⟨-, hx⟩ | ⟨-, hx⟩ | ⟨-, hx⟩ | ⟨-, hx⟩ | ⟨-, hx⟩ | ⟨-, hx⟩ | ⟨-, hx⟩ <;> rw [hx]
  · exact h
  · exact runKeysched_inv h
  · cases hk : s.kvalid
    · rw [runEncrypt_noKey hk]
      exact h.raiseError_setDout s.dout (by simp [hk])
    · rw [runEncrypt_valid hk]
      exact h.raiseError_setDout _ (e := .none) (by simp)
  · cases hk : s.kvalid
    · rw [runDecrypt_noKey hk]
      exact h.raiseError_setDout s.dout (by simp [hk])
    · rw [runDecrypt_valid hk]
      exact h.raiseError_setDout _ (e := .none) (by simp)
  · exact h.raiseError_setDout _ (e := .none) (by simp)
  · exact .of_noInstance rfl rfl (by simp)
  · exact h.raiseError_setDout s.dout (by simp)

theorem runEvent_inv {e : HostEvent} {s t : State} (h : runEvent e s = .next t) (hs : s.Inv) : t.Inv := by
  rcases runEvent_results h with ⟨-, rfl⟩ | ⟨v, -, rfl⟩ | hr
  · exact .of_noInstance rfl rfl (by simp)
  · exact execute_inv hs v
  · exact hs.of_sameResults hr

/-- Settles O43: the event a step serves keeps the invariant. -/
theorem instanceInvariantKept : Obligations.InstanceInvariantKept := by
  intro s t hs h
  rcases step_cases h with ⟨-, rfl⟩ | ⟨e, rest, -, hr⟩
  · exact hs
  · exact runEvent_inv hr (hs.of_sameResults ⟨rfl, rfl, rfl, rfl, rfl⟩)

/-! ### STATUS (`10_state.md` R31) -/

theorem statusByte_fields (s : State) :
    (statusByte s).getLsbD 0 = s.kvalid ∧ ((statusByte s).getLsbD 1 = true ↔ s.ecode ≠ .none) ∧
    ((statusByte s).extractLsb' 2 2).toNat = s.ecode.number ∧ (statusByte s).extractLsb' 4 4 = 0 := by
  unfold statusByte errFlag
  generalize s.kvalid = kv
  generalize s.ecode = ec
  revert kv
  cases ec <;> decide

/-- Settles O11, from the fields of the STATUS byte. -/
theorem statusFields : Obligations.StatusFields :=
  ⟨fun s => ⟨statusByte s, by rw [exec_rd, memRead_status]; rfl, statusByte_fields s⟩,
    fun s d => by rw [exec_wr, memWrite_status], rfl⟩

/-- Settles O45: the invariant excludes NOKEY and KEYSIZE while KVALID = 1, which leaves six of the eight values. -/
theorem statusReadsOneOfSix : Obligations.StatusReadsOneOfSix := by
  intro s h
  have hn := h.noKeyReport
  have hk := h.keySizeReport
  rw [memRead_status, statusByte, errFlag]
  cases hv : s.kvalid <;> cases he : s.ecode <;> simp [hv, he, Ecode.code] at hn hk ⊢

/-! ### What a step serves -/

/-- Settles O8: MemWrite at CMD is Execute, and both code forms run Execute. -/
theorem cmdWriteRunsTheCommand : Obligations.CmdWriteRunsTheCommand := by
  refine ⟨fun s i v h => ?_, fun s v rest => ?_⟩
  · rw [exec_wr, memWrite_cmd]
    cases i <;> cases h <;> rfl
  · rw [step_event rfl, step_event rfl, runEvent_command (.inl rfl), runEvent_command (.inr rfl)]

theorem runEvent_decoded {c : Code} {i : Instr} (h : decode c = .ok i) (s : State) : runEvent (.access c) s = exec i s := by
  simp only [runEvent, runAccess, h]

theorem decode_of_decodeTableWord {nbits w : Nat} {i : Instr} (h : decodeTableWord nbits w = some i) :
    decode (codeOfTableWord nbits w) = .ok i := by
  unfold decodeTableWord at h
  split at h
  · rename_i j hj
    cases h
    exact hj
  · cases h

/-- Settles O7: serving an access runs what its code decodes to. -/
theorem stepRunsDecodedInstruction : Obligations.StepRunsDecodedInstruction :=
  ⟨fun _ _ _ _ hp hd => (step_event hp).trans (runEvent_decoded hd _),
    fun _ _ _ _ hw => (step_event rfl).trans (runEvent_decoded (decode_of_decodeTableWord hw) _),
    fun _ => step_idle⟩

/-! ### What a program cannot see -/

/-- Whatever the host issues, short of a command that is not `Allowed`, keeps R, and R hides nothing that the host has read. -/
structure Unseen (R : State → State → Prop) (Allowed : Byte → Prop) : Prop where
  pending : ∀ {s s'}, R s s' → s'.pending = s.pending
  readLog : ∀ {s s'}, R s s' → s'.readLog = s.readLog
  take : ∀ {s s'} rest, R s s' → R { s with pending := rest } { s' with pending := rest }
  reset : ∀ {s s'}, R s s' → R (resetCore s) (resetCore s')
  command : ∀ {s s' v}, Allowed v → R s s' → R (execute v s) (execute v s')
  write : ∀ {s s' a} v, a ≠ 0x81 → R s s' → R (memWrite a v s) (memWrite a v s')
  read : ∀ {s s'} a, R s s' → R (respond (memRead a s) s) (respond (memRead a s') s')

namespace Unseen

variable {R : State → State → Prop} {Allowed : Byte → Prop} {s s' t : State}

theorem event_keeps (hU : Unseen R Allowed) {e : HostEvent} (hR : R s s') (hall : ∀ v, RunsCommand e v → Allowed v)
    (h : runEvent e s = .next t) : ∃ t', runEvent e s' = .next t' ∧ R t t' := by
  rcases runEvent_cases h with ⟨rfl, rfl⟩ | ⟨v, hv, rfl⟩ | ⟨a, v, ha, rfl, rfl⟩ | ⟨a, rfl, rfl⟩
  · exact ⟨_, runEvent_reset s', hU.reset hR⟩
  · exact ⟨_, runEvent_command hv s', hU.command (hall v hv) hR⟩
  · exact ⟨_, runEvent_write a v s', hU.write v ha hR⟩
  · exact ⟨_, runEvent_read a s', hU.read a hR⟩

theorem step_keeps (hU : Unseen R Allowed) (hR : R s s') (hall : ∀ e ∈ s.pending, ∀ v, RunsCommand e v → Allowed v)
    (h : step s = .next t) : ∃ t', step s' = .next t' ∧ R t t' := by
  rcases step_cases h with ⟨hp, rfl⟩ | ⟨e, rest, hp, hr⟩
  · exact ⟨s', step_idle ((hU.pending hR).trans hp), hR⟩
  · rw [step_event ((hU.pending hR).trans hp)]
    exact hU.event_keeps (hU.take rest hR) (hall e (by simp [hp])) hr

theorem run_keeps (hU : Unseen R Allowed) (n : Nat) (hR : R s s')
    (hall : ∀ e ∈ s.pending, ∀ v, RunsCommand e v → Allowed v) (h : core.run n s = .next t) :
    ∃ t', core.run n s' = .next t' ∧ R t t' := by
  induction n generalizing s s' with
  | zero =>
    cases h
    exact ⟨s', rfl, hR⟩
  | succ n ih =>
    obtain ⟨u, hu, hrun⟩ := run_succ h
    obtain ⟨u', hu', hRu⟩ := hU.step_keeps hR hall hu
    have hallu : ∀ e ∈ u.pending, ∀ v, RunsCommand e v → Allowed v := fun e he =>
      hall e (List.mem_of_mem_drop (step_pending hu ▸ he))
    rw [run_step n hu']
    exact ih hRu hallu hrun

/-- Two runs from related states return the same values to the host. -/
theorem run_readLog (hU : Unseen R Allowed) (n : Nat) (hR : R s s')
    (hall : ∀ e ∈ s.pending, ∀ v, RunsCommand e v → Allowed v) (h : core.run n s = .next t) :
    ∃ t', core.run n s' = .next t' ∧ t'.readLog = t.readLog := by
  obtain ⟨t', ht', hRt⟩ := hU.run_keeps n hR hall h
  exact ⟨t', ht', hU.readLog hRt⟩

end Unseen

/-- The two states agree in everything but KEY. -/
def AgreeButKey (s s' : State) : Prop := ∃ key' : KeyBuffer, s' = { s with key := key' }

/-- The two states agree in everything but K. -/
def AgreeButTable (s s' : State) : Prop := ∃ k' : SubkeyTable, s' = { s with k := k' }

/-- No host address reads KEY (R24). -/
theorem memRead_withKey (a : Byte) (s : State) (key' : KeyBuffer) : memRead a { s with key := key' } = memRead a s := by
  unfold memRead
  cases hostReg a <;> rfl

/-- No host address reads K (R22). -/
theorem memRead_withTable (a : Byte) (s : State) (k' : SubkeyTable) : memRead a { s with k := k' } = memRead a s := by
  unfold memRead
  cases hostReg a <;> rfl

theorem runEncrypt_withKey (s : State) (key' : KeyBuffer) :
    runEncrypt { s with key := key' } = { runEncrypt s with key := key' } := by
  unfold runEncrypt
  dsimp only
  split <;> rfl

theorem runDecrypt_withKey (s : State) (key' : KeyBuffer) :
    runDecrypt { s with key := key' } = { runDecrypt s with key := key' } := by
  unfold runDecrypt
  dsimp only
  split <;> rfl

/-- KEYSCHED writes K without reading it (R150). -/
theorem runKeysched_withTable (s : State) (k' : SubkeyTable) : runKeysched { s with k := k' } = runKeysched s := by
  unfold runKeysched
  dsimp only
  split <;> rfl

/-- Only KEYSCHED reads KEY (R24). -/
theorem unseen_agreeButKey : Unseen AgreeButKey (· ≠ 0x01) where
  pending := by rintro s _ ⟨key', rfl⟩; rfl
  readLog := by rintro s _ ⟨key', rfl⟩; rfl
  take := by rintro s _ rest ⟨key', rfl⟩; exact ⟨key', rfl⟩
  reset := by rintro s _ ⟨key', rfl⟩; exact ⟨_, rfl⟩
  command := by
    rintro s _ v hv ⟨key', rfl⟩
    rcases execute_cases v s with ⟨rfl, -⟩ | ⟨rfl, -⟩ | ⟨rfl, -⟩ | ⟨rfl, -⟩ | ⟨rfl, -⟩ | ⟨rfl, -⟩ | ⟨hill, -⟩
    · exact ⟨key', rfl⟩
    · exact absurd rfl hv
    · exact ⟨key', runEncrypt_withKey s key'⟩
    · exact ⟨key', runDecrypt_withKey s key'⟩
    · exact ⟨key', rfl⟩
    · exact ⟨Vector.replicate 128 0, rfl⟩
    · rw [execute_illegal v _ hill, execute_illegal v _ hill]
      exact ⟨key', rfl⟩
  write := by
    rintro s _ a v ha ⟨key', rfl⟩
    unfold memWrite
    cases hr : hostReg a
    case cmd => exact absurd (hostReg_eq_cmd.mp hr) ha
    all_goals exact ⟨_, rfl⟩
  read := by
    rintro s _ a ⟨key', rfl⟩
    rw [memRead_withKey]
    exact ⟨key', rfl⟩

/-- Only ENCRYPT and DECRYPT read K (R22). -/
theorem unseen_agreeButTable : Unseen AgreeButTable (fun v => v ≠ 0x02 ∧ v ≠ 0x03) where
  pending := by rintro s _ ⟨k', rfl⟩; rfl
  readLog := by rintro s _ ⟨k', rfl⟩; rfl
  take := by rintro s _ rest ⟨k', rfl⟩; exact ⟨k', rfl⟩
  reset := by rintro s _ ⟨k', rfl⟩; exact ⟨_, rfl⟩
  command := by
    rintro s _ v ⟨henc, hdec⟩ ⟨k', rfl⟩
    rcases execute_cases v s with ⟨rfl, -⟩ | ⟨rfl, -⟩ | ⟨rfl, -⟩ | ⟨rfl, -⟩ | ⟨rfl, -⟩ | ⟨rfl, -⟩ | ⟨hill, -⟩
    · exact ⟨k', rfl⟩
    · exact ⟨(runKeysched s).k, runKeysched_withTable s k'⟩
    · exact absurd rfl henc
    · exact absurd rfl hdec
    · exact ⟨k', rfl⟩
    · exact ⟨Vector.replicate 64 0, rfl⟩
    · rw [execute_illegal v _ hill, execute_illegal v _ hill]
      exact ⟨k', rfl⟩
  write := by
    rintro s _ a v ha ⟨k', rfl⟩
    unfold memWrite
    cases hr : hostReg a
    case cmd => exact absurd (hostReg_eq_cmd.mp hr) ha
    all_goals exact ⟨_, rfl⟩
  read := by
    rintro s _ a ⟨k', rfl⟩
    rw [memRead_withTable]
    exact ⟨k', rfl⟩

/-- Settles O55: runs from two states that agree in everything but KEY stay so, and KEY is never read out. -/
theorem keyBufferUnseen : Obligations.KeyBufferUnseen := by
  intro n s t key' hno h
  exact unseen_agreeButKey.run_readLog n ⟨key', rfl⟩ (fun e he v hv hks => hno e he (hks ▸ hv)) h

/-- Settles O56: runs from two states that agree in everything but K stay so, and K is never read out. -/
theorem subkeyTableUnseen : Obligations.SubkeyTableUnseen := by
  intro n s t k' hno h
  refine unseen_agreeButTable.run_readLog n ⟨k', rfl⟩ (fun e he v hv => ?_) h
  obtain ⟨henc, hdec⟩ := hno e he
  exact ⟨fun hv2 => henc (hv2 ▸ hv), fun hv3 => hdec (hv3 ▸ hv)⟩

end Sys2Proof.Machine

/-! PROOFS about the host bus: where every address leads, what a write and a read do there, in which order a block's bytes stand,
and how a list of host events runs. -/

namespace Sys2Proof.Machine

/-! ### What stands at each address (`20_memory.md` R61) -/

theorem hostReg_keyAddress (i : Fin 128) : hostReg (BitVec.ofNat 8 i) = .key i := by
  have hi : (BitVec.ofNat 8 i).toNat = i := by simp; omega
  rw [hostReg_key _ (by omega)]
  simp only [hi]

theorem hostReg_dinAddress (i : Fin 8) : hostReg (BitVec.ofNat 8 (0x88 + i)) = .din i := by
  revert i; decide

theorem hostReg_doutAddress (i : Fin 8) : hostReg (BitVec.ofNat 8 (0x90 + i)) = .dout i := by
  revert i; decide

theorem hostReg_reserved {a : Byte} (h : (0x85 ≤ a.toNat ∧ a.toNat ≤ 0x87) ∨ 0x98 ≤ a.toNat) :
    hostReg a = .reserved := by
  unfold hostReg
  repeat' split
  case isFalse => rfl
  all_goals bv_omega

theorem dinAddress_of_hostReg {a : Byte} {i : Fin 8} (h : hostReg a = .din i) : a = BitVec.ofNat 8 (0x88 + i) := by
  unfold hostReg at h
  repeat' split at h
  all_goals simp at h
  subst h
  bv_omega

/-! ### Host writes (`20_memory.md` R62) -/

/-- A write to a read-only or reserved address is ignored (R64). -/
theorem memWrite_ignored {a : Byte} (h : (0x82 ≤ a.toNat ∧ a.toNat ≤ 0x87) ∨ 0x90 ≤ a.toNat) (v : Byte) (s : State) :
    memWrite a v s = s := by
  have ha : a ≠ 0x81 := by bv_omega
  rcases memWrite_cases_of_ne_cmd ha v s with ⟨hkey, -⟩ | ⟨hklen, -⟩ | ⟨hdin, -⟩ | hw
  · omega
  · subst hklen
    simp at h
  · omega
  · exact hw

theorem memWrite_memWrite {a : Byte} (ha : a ≠ 0x81) (v : Byte) (s : State) :
    memWrite a v (memWrite a v s) = memWrite a v s := by
  cases hr : hostReg a with
  | cmd => exact absurd (hostReg_eq_cmd.mp hr) ha
  | key i => simp [memWrite, hr, setKeyByte]
  | klen => simp [memWrite, hr, setKlen]
  | din i => simp [memWrite, hr, setDinByte]
  | _ => simp [memWrite, hr]

/-- Execute for each of the 256 CMD bytes, as the meanings of the commands (R230, R233). -/
theorem next_execute (v : Byte) (s : State) :
    .next (execute v s) =
      (if v = 0x00 then exec .nop s else if v = 0x01 then exec .keysched s else if v = 0x02 then exec .encrypt s
       else if v = 0x03 then exec .decrypt s else if v = 0x04 then exec .sbox s else if v = 0x05 then exec .zeroize s
       else .next { s with ecode := .badCmd }) := by
  rcases execute_cases v s with ⟨rfl, -⟩ | ⟨rfl, -⟩ | ⟨rfl, -⟩ | ⟨rfl, -⟩ | ⟨rfl, -⟩ | ⟨rfl, -⟩ | ⟨hill, h⟩
  case inr.inr.inr.inr.inr.inr =>
    have hne (c : Byte) (hc : c.toNat < 6) : v ≠ c := by rintro rfl; omega
    simp [h, hne, raiseError]
  all_goals rfl

/-- Settles O9: the address selects the register, and at CMD the byte selects the command. -/
theorem hostWriteEffects : Obligations.HostWriteEffects := by
  intro s v
  refine ⟨fun i => ?_, rfl, ?_, fun i => ?_, fun a ha => ?_⟩
  · rw [exec_wr, memWrite, hostReg_keyAddress]
    rfl
  · rw [exec_wr, memWrite_cmd, next_execute]
  · rw [exec_wr, memWrite, hostReg_dinAddress]
    rfl
  · rw [exec_wr, memWrite_ignored ha]

/-! ### Host reads (`20_memory.md` R63) -/

/-- STATUS as a number (`10_state.md` R31). -/
theorem statusByte_eq_ofNat (s : State) :
    statusByte s =
      BitVec.ofNat 8 (s.kvalid.toNat + 2 * (if s.ecode.number ≠ 0 then 1 else 0) + 4 * s.ecode.number) := by
  rw [statusByte, errFlag]
  cases s.kvalid <;> cases s.ecode <;> rfl

theorem statusByte_congr {s t : State} (hr : SameResults s t) : statusByte t = statusByte s := by
  unfold statusByte errFlag
  rw [hr.kvalid, hr.ecode]

/-- A read is decided by what commands write, by KLEN and by DIN, each of the last two at its own addresses. -/
theorem memRead_congr {s t : State} {a : Byte} (hr : SameResults s t) (hklen : hostReg a = .klen → t.klen = s.klen)
    (hdin : ∀ i, hostReg a = .din i → t.din[i] = s.din[i]) : memRead a t = memRead a s := by
  unfold memRead
  cases ha : hostReg a with
  | klen => exact hklen ha
  | status => exact statusByte_congr hr
  | errlen => exact hr.errlen
  | din i => exact hdin i ha
  | dout i => exact congrArg (·[i]) hr.dout
  | _ => rfl

/-- Settles O10: the address selects what is returned. -/
theorem hostReadValues : Obligations.HostReadValues := by
  intro s
  refine ⟨fun a ha => ?_, rfl, rfl, ?_, rfl, rfl, fun i => ?_, fun i => ?_, fun a ha => ?_⟩
  · rw [exec_rd, memRead, hostReg_key a ha]
    rfl
  · rw [exec_rd, memRead_status, statusByte_eq_ofNat]
    rfl
  · rw [exec_rd, memRead, hostReg_dinAddress]
    rfl
  · rw [exec_rd, memRead, hostReg_doutAddress]
    rfl
  · rw [exec_rd, memRead, hostReg_reserved ha]
    rfl

/-! ### Reading after a write -/

theorem memRead_memWrite_other {a b : Byte} (ha : a ≠ 0x81) (hb : b ≠ a) (v : Byte) (s : State) :
    memRead b (memWrite a v s) = memRead b s := by
  refine memRead_congr (memWrite_sameResults ha v s) (fun hklen => ?_) fun i hdin => ?_
  · rcases memWrite_cases_of_ne_cmd ha v s with ⟨-, j, hw⟩ | ⟨rfl, -⟩ | ⟨-, j, hw⟩ | hw
    case inr.inl => exact absurd (eq_of_hostReg_eq_klen hklen) hb
    all_goals simp [hw]
  · rcases memWrite_cases a v s with ⟨j, -, hw⟩ | ⟨-, hw⟩ | ⟨hcmd, -⟩ | ⟨j, hr, hw⟩ | hw
    · simp [hw]
    · simp [hw]
    · exact absurd (hostReg_eq_cmd.mp hcmd) ha
    · have hne : j.val ≠ i.val := fun hji =>
        hb (by rw [dinAddress_of_hostReg hdin, dinAddress_of_hostReg hr, hji])
      simp [hw, Vector.getElem_set_ne, hne]
    · simp [hw]

theorem memRead_memWrite_same {a : Byte} (h : a = 0x80 ∨ (0x88 ≤ a.toNat ∧ a.toNat ≤ 0x8F)) (v : Byte) (s : State) :
    memRead a (memWrite a v s) = v := by
  rcases h with rfl | hdin
  · rfl
  · obtain ⟨i, rfl⟩ : ∃ i : Fin 8, a = BitVec.ofNat 8 (0x88 + i) := ⟨⟨a.toNat - 0x88, by omega⟩, by bv_omega⟩
    simp [memRead, memWrite, hostReg_dinAddress]

/-- Settles O12: a write outside CMD changes what is read at its own address alone. -/
theorem writeLeavesOtherAddresses : Obligations.WriteLeavesOtherAddresses :=
  fun s a v ha => ⟨memWrite a v s, exec_wr a v s, fun _ hb => memRead_memWrite_other ha hb v s,
    fun h => memRead_memWrite_same h v s⟩

/-! ### Repeated accesses and commands (`20_memory.md` R66) -/

/-- ENCRYPT writes neither K, KVALID nor DIN, which are all it reads (R175). -/
theorem runEncrypt_runEncrypt (s : State) : runEncrypt (runEncrypt s) = runEncrypt s := by
  cases h : s.kvalid
  · rw [runEncrypt_noKey h]
    exact runEncrypt_noKey h
  · rw [runEncrypt_valid h]
    exact runEncrypt_valid h

/-- DECRYPT writes neither K, KVALID nor DIN, which are all it reads (R204). -/
theorem runDecrypt_runDecrypt (s : State) : runDecrypt (runDecrypt s) = runDecrypt s := by
  cases h : s.kvalid
  · rw [runDecrypt_noKey h]
    exact runDecrypt_noKey h
  · rw [runDecrypt_valid h]
    exact runDecrypt_valid h

/-- SBOX does not write DIN, which is all it reads (R123). -/
theorem runSbox_runSbox (s : State) : runSbox (runSbox s) = runSbox s := rfl

/-- No host address reads the host's own side of the port (log 1, log 2). -/
theorem memRead_withHostSide (a : Byte) (s : State) (pending : List HostEvent) (readLog : List Byte) :
    memRead a { s with pending := pending, readLog := readLog } = memRead a s :=
  memRead_congr ⟨rfl, rfl, rfl, rfl, rfl⟩ (fun _ => rfl) fun _ _ => rfl

/-- Settles O13: none of these writes what it reads. -/
theorem repeatedAccessesChangeNothing : Obligations.RepeatedAccessesChangeNothing := by
  refine ⟨fun s a v ha => ⟨memWrite a v s, exec_wr a v s, ?_⟩,
    fun s a => ⟨respond (memRead a s) s, exec_rd a s, ⟨rfl, rfl, rfl, rfl, rfl, rfl, rfl, rfl⟩, memRead_withHostSide a s _ _⟩, ?_⟩
  · rw [exec_wr, memWrite_memWrite ha]
  · rintro s i (rfl | rfl | rfl)
    · exact ⟨runEncrypt s, rfl, by rw [exec_encrypt, runEncrypt_runEncrypt]⟩
    · exact ⟨runDecrypt s, rfl, by rw [exec_decrypt, runDecrypt_runDecrypt]⟩
    · exact ⟨runSbox s, rfl, by rw [exec_sbox, runSbox_runSbox]⟩

/-! ### The byte order of a block (`20_memory.md` R67) -/

theorem toNat_wordOfBytes (lo hi : Byte) : (wordOfBytes lo hi).toNat = lo.toNat + 256 * hi.toNat := by
  simp [wordOfBytes]
  omega

@[simp] theorem lowByte_wordOfBytes (lo hi : Byte) : lowByte (wordOfBytes lo hi) = lo := by
  apply BitVec.eq_of_toNat_eq
  simp [lowByte, toNat_wordOfBytes, Nat.mod_eq_of_lt lo.isLt]

@[simp] theorem highByte_wordOfBytes (lo hi : Byte) : highByte (wordOfBytes lo hi) = hi := by
  apply BitVec.eq_of_toNat_eq
  simp [highByte, toNat_wordOfBytes, Nat.shiftRight_eq_div_pow]
  omega

@[simp] theorem wordOfBytes_low_high (x : Word) : wordOfBytes (lowByte x) (highByte x) = x := by
  apply BitVec.eq_of_toNat_eq
  simp [lowByte, highByte, toNat_wordOfBytes, Nat.shiftRight_eq_div_pow]
  omega

theorem unpackBlock_getElem (b : Block) (i : Fin 4) :
    (unpackBlock b)[i] = wordOfBytes b[2 * i.val] b[2 * i.val + 1] := by
  fin_cases i <;> rfl

theorem packBlock_getElem (r : BlockWords) (i : Fin 4) :
    (packBlock r)[2 * i.val] = lowByte r[i] ∧ (packBlock r)[2 * i.val + 1] = highByte r[i] := by
  fin_cases i <;> exact ⟨rfl, rfl⟩

theorem packBlock_unpackBlock (b : Block) : packBlock (unpackBlock b) = b := by
  ext i hi
  interval_cases i <;> simp [packBlock, unpackBlock]

theorem unpackBlock_packBlock (r : BlockWords) : unpackBlock (packBlock r) = r := by
  apply Vector.ext
  intro i hi
  obtain ⟨hlo, hhi⟩ := packBlock_getElem r ⟨i, hi⟩
  have h := unpackBlock_getElem (packBlock r) ⟨i, hi⟩
  rw [hlo, hhi, wordOfBytes_low_high] at h
  exact h

/-- Settles O14, from the words of Unpack and the bytes of Pack. -/
theorem blockByteOrder : Obligations.BlockByteOrder :=
  ⟨fun b i => by rw [unpackBlock_getElem, toNat_wordOfBytes], packBlock_getElem, packBlock_unpackBlock,
    unpackBlock_packBlock⟩

/-! ### Programs the port can serve (`30_encoding.md` R94, R95) -/

/-- Settles O42: every arm of exec answers a next state. -/
theorem everyInstructionCompletes : Obligations.EveryInstructionCompletes := by
  intro i s
  cases i <;> exact ⟨_, rfl⟩

theorem htwType_of_shiftRight {w : Htw} {b : Byte} (h : w >>> (24 : Nat) = b.setWidth 32) : htwType w = b := by
  have h8 : htwType w = (w >>> (24 : Nat)).setWidth 8 := by
    apply BitVec.eq_of_toNat_eq
    simp [htwType]
  rw [h8, h, BitVec.setWidth_setWidth_of_le _ (by decide), BitVec.setWidth_eq]

/-- A byte field of a word is zero if the word is zero under a mask that holds the field. -/
theorem extractLsb'_eq_zero_of_mask {w m : Htw} {lo : Nat} (h : w &&& m = 0) (hm : m.extractLsb' lo 8 = .allOnes 8) :
    w.extractLsb' lo 8 = 0 := by
  have hf := congrArg (BitVec.extractLsb' lo 8) h
  rw [BitVec.extractLsb'_and, hm, BitVec.and_allOnes] at hf
  simpa using hf

theorem decodeHtw_of_wf {w : Htw} (h : (Code.htw w).wf = true) : ∃ i, decodeHtw w = .ok i := by
  simp only [Code.wf, htwTypeKnown, htwZeroField, htwReadDataZero, Bool.and_eq_true, Bool.or_eq_true, beq_iff_eq,
    Bool.not_eq_true', beq_eq_false_iff_ne] at h
  obtain ⟨⟨htype, hzero⟩, hdata⟩ := h
  have hz : htwZero w = 0 := extractLsb'_eq_zero_of_mask hzero (by decide)
  rcases htype with hw | hr
  · have ht : htwType w = 0x57 := htwType_of_shiftRight hw
    exact ⟨.wr (htwAddr w) (htwData w), by simp [decodeHtw, ht, hz]⟩
  · have ht : htwType w = 0x52 := htwType_of_shiftRight hr
    have hd : htwData w = 0 := extractLsb'_eq_zero_of_mask (hdata.resolve_left (absurd hr)) (by decide)
    exact ⟨.rd (htwAddr w), by simp [decodeHtw, ht, hz, hd]⟩

theorem runEvent_of_served {e : HostEvent} (h : e.served = true) (s : State) : ∃ t, runEvent e s = .next t := by
  rcases e with (v | w) | _
  · exact ⟨_, runEvent_cmd8 v s⟩
  · obtain ⟨i, hi⟩ := decodeHtw_of_wf h
    rw [runEvent_decoded (c := .htw w) hi]
    exact everyInstructionCompletes i s
  · exact ⟨_, runEvent_reset s⟩

theorem step_of_ready {s : State} (h : s.ready = true) : ∃ t, step s = .next t ∧ t.ready = true := by
  obtain ⟨t, ht⟩ : ∃ t, step s = .next t := by
    cases hp : s.pending with
    | nil => exact ⟨s, step_idle hp⟩
    | cons e rest =>
      have he : e.served = true := List.all_eq_true.mp h e (by simp [hp])
      rw [step_event hp]
      exact runEvent_of_served he _
  refine ⟨t, ht, List.all_eq_true.mpr fun e he => List.all_eq_true.mp h e ?_⟩
  exact List.mem_of_mem_drop (step_pending ht ▸ he)

/-- A run takes its first n events off. -/
theorem run_pending {n : Nat} {s t : State} (h : core.run n s = .next t) : t.pending = s.pending.drop n := by
  induction n generalizing s with
  | zero =>
    cases h
    rfl
  | succ n ih =>
    obtain ⟨u, hu, hrun⟩ := run_succ h
    rw [ih hrun, step_pending hu, List.drop_drop, Nat.add_comm]

theorem run_of_ready (n : Nat) {s : State} (h : s.ready = true) : ∃ t, core.run n s = .next t ∧ t.ready = true := by
  induction n generalizing s with
  | zero => exact ⟨s, rfl, h⟩
  | succ n ih =>
    obtain ⟨u, hu, hready⟩ := step_of_ready h
    rw [run_step n hu]
    exact ih hready

/-- Settles O52: a step from a ready state answers a ready state, so every run does. -/
theorem readyProgramsRun : Obligations.ReadyProgramsRun := by
  intro n s h
  obtain ⟨t, hrun, hready⟩ := run_of_ready n h
  exact ⟨t, hrun, hready, run_pending hrun⟩

/-! ### Runs with no command (`20_memory.md` R74) -/

theorem SameResults.trans {s t u : State} (hst : SameResults s t) (htu : SameResults t u) : SameResults s u :=
  ⟨htu.dout.trans hst.dout, htu.k.trans hst.k, htu.kvalid.trans hst.kvalid, htu.ecode.trans hst.ecode,
    htu.errlen.trans hst.errlen⟩

/-- Whatever is pending after them, events that are no reset and no command keep what commands write. -/
theorem run_sameResults {events rest : List HostEvent} {s t : State} (hp : s.pending = events ++ rest)
    (hno : ∀ e ∈ events, e ≠ .reset ∧ ∀ v : Byte, ¬RunsCommand e v) (h : core.run events.length s = .next t) :
    SameResults s t := by
  induction events generalizing s with
  | nil =>
    cases h
    exact ⟨rfl, rfl, rfl, rfl, rfl⟩
  | cons e events ih =>
    obtain ⟨u, hu, hrun⟩ := run_succ h
    have hup : u.pending = events ++ rest := by rw [step_pending hu, hp]; rfl
    obtain ⟨hreset, hcmd⟩ := hno e (by simp)
    rw [step_event hp] at hu
    rcases runEvent_results hu with ⟨he, -⟩ | ⟨v, hv, -⟩ | hsu
    · exact absurd he hreset
    · exact absurd hv (hcmd v)
    · have hsu' : SameResults s u := ⟨hsu.dout, hsu.k, hsu.kvalid, hsu.ecode, hsu.errlen⟩
      exact hsu'.trans (ih hup (fun e' he' => hno e' (by simp [he'])) hrun)

/-- Settles O53: such a run keeps what commands write, and STATUS shows nothing else. -/
theorem outputsStableWithoutCommands : Obligations.OutputsStableWithoutCommands := by
  intro events rest s t hp hno h
  have hr := run_sameResults hp hno h
  have hstatus : memRead 0x82 t = memRead 0x82 s := memRead_congr hr (by simp) (by simp)
  exact ⟨hr.dout, hr.errlen, hstatus, hr.k, hr.kvalid, hr.ecode, by rw [run_pending h, hp, List.drop_left]⟩

/-! ### Runs of reads (`30_encoding.md` R96) -/

/-- Reads return what stands at their addresses before the first of them, since none changes what a later one returns. -/
theorem run_reads (addrs : List Byte) (rest : List HostEvent) {s : State}
    (hp : s.pending = hostEvents (addrs.map .rd) ++ rest) :
    core.run addrs.length s =
      .next { s with pending := rest, readLog := (addrs.map (memRead · s)).reverse ++ s.readLog } := by
  induction addrs generalizing s with
  | nil =>
    cases s
    cases hp
    rfl
  | cons a addrs ih =>
    have hstep := (step_event hp).trans (runEvent_read a _)
    rw [List.length_cons, run_step _ hstep, ih rfl]
    simp [respond, memRead_withHostSide]

theorem memRead_doutAddresses (s : State) :
    ((List.range 8).map fun i => memRead (BitVec.ofNat 8 (0x90 + i)) s) = s.dout.toList := by
  apply List.ext_getElem (by simp)
  intro i hi _
  have hdout := hostReg_doutAddress ⟨i, by simpa using hi⟩
  simp only [List.getElem_map, List.getElem_range, memRead, hdout]
  rfl

/-- Settles O54: getblk is the reads at the addresses of DOUT. -/
theorem outputBlockReadsBack : Obligations.OutputBlockReadsBack := by
  intro s rest hp
  have h := run_reads ((List.range 8).map fun i => BitVec.ofNat 8 (0x90 + i)) rest (s := s)
    (by rw [hp, asmGetblk, List.map_map]; rfl)
  rw [List.map_map] at h
  rw [← memRead_doutAddresses s]
  exact h

end Sys2Proof.Machine

/-! PROOFS about the encoding: the decoder and the encoder undo each other, and which CMD bytes and transaction words decode. -/

namespace Sys2Proof.Machine

/-! ### Decoding a CMD byte (`30_encoding.md` R92 to R94) -/

/-- A CMD byte is one of the six assigned ones or illegal (R93). -/
theorem cmdByte_cases (v : Byte) :
    v = 0x00 ∨ v = 0x01 ∨ v = 0x02 ∨ v = 0x03 ∨ v = 0x04 ∨ v = 0x05 ∨ 6 ≤ v.toNat := by
  bv_omega

/-- A CMD byte decodes to the command whose byte it is, or is illegal (R92, R93). -/
theorem decode_cmd8_cases (v : Byte) :
    (∃ i, decode (.cmd8 v) = .ok i ∧ encode i = .cmd8 v) ∨
    (6 ≤ v.toNat ∧ decode (.cmd8 v) = .error .illegalCommand) := by
  rcases cmdByte_cases v with rfl | rfl | rfl | rfl | rfl | rfl | hill
  · exact .inl ⟨.nop, rfl, rfl⟩
  · exact .inl ⟨.keysched, rfl, rfl⟩
  · exact .inl ⟨.encrypt, rfl, rfl⟩
  · exact .inl ⟨.decrypt, rfl, rfl⟩
  · exact .inl ⟨.sbox, rfl, rfl⟩
  · exact .inl ⟨.zeroize, rfl, rfl⟩
  · exact .inr ⟨hill, by rw [decode, decodeCommand_illegal v hill]; rfl⟩

/-- Settles O3: the six assigned bytes by evaluation, the others by `decodeCommand_illegal`. -/
theorem commandByteDecoding : Obligations.CommandByteDecoding := by
  intro v
  rcases cmdByte_cases v with rfl | rfl | rfl | rfl | rfl | rfl | hill
  case inr.inr.inr.inr.inr.inr =>
    have hne (c : Byte) (hc : c.toNat < 6) : v ≠ c := by rintro rfl; omega
    simp [decodeCommand_illegal v hill, hne]
  all_goals rfl

/-! ### Decoding a host transaction word (`30_encoding.md` R95) -/

theorem decode_htw_write {w : Htw} (ht : htwType w = 0x57) (hz : htwZero w = 0x00) :
    decode (.htw w) = .ok (.wr (htwAddr w) (htwData w)) := by
  simp [decode, decodeHtw, ht, hz]

theorem decode_htw_read {w : Htw} (ht : htwType w = 0x52) (hz : htwZero w = 0x00) (hd : htwData w = 0x00) :
    decode (.htw w) = .ok (.rd (htwAddr w)) := by
  simp [decode, decodeHtw, ht, hz, hd]

/-! ### The decoder and the encoder undo each other -/

/-- Settles O1: a command's byte by evaluation, an access's word by its four fields. -/
theorem decodeOfEncode : Obligations.DecodeOfEncode := by
  intro i
  cases i with
  | wr a v =>
    obtain ⟨htype, hzero, haddr, hdata⟩ := htw_of_bytes 0x57#8 0x00#8 a v
    rw [encode, decode_htw_write htype hzero, haddr, hdata]
  | rd a =>
    obtain ⟨htype, hzero, haddr, hdata⟩ := htw_of_bytes 0x52#8 0x00#8 a 0x00#8
    rw [encode, decode_htw_read htype hzero hdata, haddr]
  | _ => rfl

/-- Settles O2: a byte that decodes is the command's own, and a decoded word is put together again from its fields. -/
theorem encodeOfDecode : Obligations.EncodeOfDecode := by
  rintro (v | w) i h
  · rcases decode_cmd8_cases v with ⟨j, hj, henc⟩ | ⟨-, hill⟩
    · cases hj.symm.trans h
      exact henc
    · cases hill.symm.trans h
  · rcases decodeHtw_cases w with ⟨a, v, hw⟩ | ⟨a, hw⟩ | ⟨err, hw, -⟩ <;> cases hw.symm.trans h
    · rw [decodeHtw_wr hw]
      rfl
    · rw [decodeHtw_rd hw]
      rfl

/-! ### What is refused -/

/-- A word that meets neither format does not decode, and its error is no illegal command (R95). -/
theorem decodeHtw_error {w : Htw} (hwr : ¬(htwType w = 0x57 ∧ htwZero w = 0x00))
    (hrd : ¬(htwType w = 0x52 ∧ htwZero w = 0x00 ∧ htwData w = 0x00)) :
    ∃ err, decodeHtw w = .error err ∧ err ≠ .illegalCommand := by
  rcases decodeHtw_cases w with ⟨a, v, hw⟩ | ⟨a, hw⟩ | herr
  · obtain ⟨htype, hzero, -, -⟩ := htw_of_bytes 0x57 0x00 a v
    rw [decodeHtw_wr hw] at hwr
    exact absurd ⟨htype, hzero⟩ hwr
  · obtain ⟨htype, hzero, -, hdata⟩ := htw_of_bytes 0x52 0x00 a 0x00
    rw [decodeHtw_rd hw] at hrd
    exact absurd ⟨htype, hzero, hdata⟩ hrd
  · exact herr

/-- Settles O4: the fields of a word decide between a write, a read and a refusal. -/
theorem transactionWordDecoding : Obligations.TransactionWordDecoding := by
  refine fun w => ⟨fun ⟨ht, hz⟩ => decode_htw_write ht hz, fun ⟨ht, hz, hd⟩ => decode_htw_read ht hz hd,
    fun hwr hrd s rest hp => ?_⟩
  obtain ⟨err, herr, hne⟩ := decodeHtw_error hwr hrd
  rw [step_event hp]
  exact runAccess_refused herr hne _

/-! ### The well-formed codes (`30_encoding.md` R90, R93, R95) -/

/-- RSV = 0 leaves the three bits of OP, of which R92 assigns 0 to 5. -/
theorem cmd8_wf_lt {v : Byte} (h : (Code.cmd8 v).wf = true) : v.toNat < 6 := by
  simp only [Code.wf, cmdReservedZero, cmdOpAssigned, Bool.and_eq_true, beq_iff_eq, decide_eq_true_eq] at h
  obtain ⟨hrsv, hop⟩ := h
  have hlt : v.toNat / 2 ^ 3 = 0 := by
    rw [← Nat.shiftRight_eq_div_pow, ← BitVec.toNat_ushiftRight, hrsv]
    rfl
  have hmod : (v &&& 0x07).toNat = v.toNat % 2 ^ 3 := Nat.and_two_pow_sub_one_eq_mod v.toNat 3
  omega

theorem ushiftRight_eq_htwType (w : Htw) : w >>> (24 : Nat) = (htwType w).setWidth 32 := by
  apply BitVec.eq_of_toNat_eq
  simp [htwType, Nat.shiftRight_eq_div_pow]
  omega

/-- A word is zero under the mask of a byte field that is zero: the other direction of `extractLsb'_eq_zero_of_mask`. -/
theorem and_mask_eq_zero_of_extractLsb' {w : Htw} {lo : Nat} (h : w.extractLsb' lo 8 = 0) :
    w &&& (BitVec.allOnes 8).setWidth 32 <<< lo = 0 := by
  apply BitVec.eq_of_getLsbD_eq
  intro i hi
  simp only [BitVec.getLsbD_and, BitVec.getLsbD_shiftLeft, BitVec.getLsbD_setWidth, BitVec.getLsbD_allOnes]
  by_cases hlo : lo ≤ i
  · by_cases hlen : i - lo < 8
    · have hbit : w.getLsbD i = false := by
        simpa [hlo, hlen] using congrArg (BitVec.getLsbD · (i - lo)) h
      simp [hbit]
    · simp [hlen]
  · simp [hlo]

theorem htw_write_wf {w : Htw} (ht : htwType w = 0x57) (hz : htwZero w = 0x00) : (Code.htw w).wf = true := by
  have hzero : w &&& 0x00FF0000#32 = 0 := and_mask_eq_zero_of_extractLsb' hz
  simp [Code.wf, htwTypeKnown, htwZeroField, htwReadDataZero, ushiftRight_eq_htwType, ht, hzero]

theorem htw_read_wf {w : Htw} (ht : htwType w = 0x52) (hz : htwZero w = 0x00) (hd : htwData w = 0x00) :
    (Code.htw w).wf = true := by
  have hzero : w &&& 0x00FF0000#32 = 0 := and_mask_eq_zero_of_extractLsb' hz
  have hdata : w &&& 0x000000FF#32 = 0 := and_mask_eq_zero_of_extractLsb' hd
  simp [Code.wf, htwTypeKnown, htwZeroField, htwReadDataZero, ushiftRight_eq_htwType, ht, hzero, hdata]

theorem encode_wf (i : Instr) : (encode i).wf = true := by
  cases i with
  | wr a v =>
    obtain ⟨htype, hzero, -, -⟩ := htw_of_bytes 0x57#8 0x00#8 a v
    exact htw_write_wf htype hzero
  | rd a =>
    obtain ⟨htype, hzero, -, hdata⟩ := htw_of_bytes 0x52#8 0x00#8 a 0x00#8
    exact htw_read_wf htype hzero hdata
  | _ => rfl

/-- Settles O5: a code that decodes is some instruction's code, which is well formed; a well-formed one meets a format. -/
theorem decodesIffWellFormed : Obligations.DecodesIffWellFormed := by
  refine fun c => ⟨fun ⟨i, hi⟩ => encodeOfDecode c i hi ▸ encode_wf i, fun hwf => ?_⟩
  rcases c with v | w
  · rcases decode_cmd8_cases v with ⟨i, hi, -⟩ | ⟨hill, -⟩
    · exact ⟨i, hi⟩
    · exact absurd (cmd8_wf_lt hwf) (by omega)
  · exact decodeHtw_of_wf hwf

/-! ### Codes written out -/

/-- Settles O6: each code written out is the code of its instruction, which O1 decodes. -/
theorem writtenOutWordsDecode : Obligations.WrittenOutWordsDecode :=
  ⟨decodeOfEncode .nop, decodeOfEncode .keysched, decodeOfEncode .encrypt, decodeOfEncode .decrypt, decodeOfEncode .sbox,
    decodeOfEncode .zeroize, decodeOfEncode (.wr 0x81 0x02), decodeOfEncode (.rd 0x82)⟩

end Sys2Proof.Machine

/-! PROOFS about the S-box: what SBOX does and what STATUS reads after it, and that PI is a permutation of the byte values. -/

namespace Sys2Proof.Machine

/-! ### The SBOX command (`40_sbox.md` R123) -/

/-- With no error reported STATUS is KVALID (`10_state.md` R31). -/
theorem memRead_status_of_noError {s : State} (h : s.ecode = .none) :
    memRead 0x82 s = if s.kvalid then 0x01 else 0x00 := by
  rw [memRead_status, statusByte_eq_ofNat, h]
  cases s.kvalid <;> rfl

/-- Settles O19: SBOX reports NONE, which leaves STATUS at KVALID. -/
theorem sboxEffect : Obligations.SboxEffect :=
  fun s => ⟨runSbox s, exec_sbox s, rfl, memRead_status_of_noError (s := runSbox s) rfl⟩

/-! ### PI is a permutation (`40_sbox.md` R122) -/

/-- The bytes of a list as one number, whose bit y is set if y occurs: a single evaluation then shows that every byte does. -/
def byteSet : List Byte → Nat
  | [] => 0
  | v :: vs => 2 ^ v.toNat ||| byteSet vs

theorem testBit_byteSet (vs : List Byte) (y : Byte) : (byteSet vs).testBit y.toNat = true ↔ y ∈ vs := by
  induction vs with
  | nil => simp [byteSet]
  | cons v vs ih =>
    rw [byteSet, Nat.testBit_or, Bool.or_eq_true, ih, Nat.testBit_two_pow, decide_eq_true_iff, BitVec.toNat_inj,
      List.mem_cons, eq_comm]

/-- PI[0x00], ..., PI[0xFF] in order. -/
def piValues : List Byte := (List.range 256).map fun n => pi (BitVec.ofNat 8 n)

theorem byteSet_piValues : byteSet piValues = 2 ^ 256 - 1 := by
  decide +kernel

theorem mem_piValues (y : Byte) : y ∈ piValues := by
  rw [← testBit_byteSet, byteSet_piValues, Nat.testBit_two_pow_sub_one]
  exact decide_eq_true y.isLt

theorem pi_surjective : Function.Surjective pi := by
  intro y
  obtain ⟨n, -, hn⟩ := List.mem_map.mp (mem_piValues y)
  exact ⟨BitVec.ofNat 8 n, hn⟩

/-- Settles O23: PI is onto, and a map of a finite type onto itself is one-to-one. -/
theorem piIsBijection : Obligations.PiIsBijection :=
  ⟨fun _ _ h => Finite.injective_iff_surjective.mpr pi_surjective h, pi_surjective⟩

end Sys2Proof.Machine

/-! PROOFS about the key schedule: the derived parameters, what LOAD, FWD, TRUNC, BWD and PACK do to the working buffer, what KS
depends on, and what KEYSCHED and the other commands change and leave unchanged. -/

namespace Sys2Proof.Machine

/-! ### The derived parameters (`41_key_schedule.md` R141) -/

/-- TM keeps the low T1 mod 8 bits, all 8 when T1 mod 8 is 0. -/
theorem truncMask_getLsbD (t1 : Nat) {n : Nat} (hn : n < 8) :
    (truncMask t1).getLsbD n = decide (t1 % 8 = 0 ∨ n < t1 % 8) := by
  unfold truncMask
  split
  next hzero =>
    rw [decide_eq_true (.inl hzero)]
    interval_cases n <;> rfl
  next hpos =>
    rw [BitVec.getLsbD_ofNat, Nat.testBit_two_pow_sub_one]
    simp [hn, hpos]

/-- Settles O24: the rounding of T8 is arithmetic, and the bits of TM are `truncMask_getLsbD`. -/
theorem ksDerivedParameters : Obligations.KsDerivedParameters := by
  intro t1 hlo hhi
  have hbounds : 1 ≤ effectiveBytes t1 ∧ effectiveBytes t1 ≤ 128 ∧
      8 * (effectiveBytes t1 - 1) < t1 ∧ t1 ≤ 8 * effectiveBytes t1 := by
    unfold effectiveBytes
    omega
  obtain ⟨hone, hmax, hbelow, habove⟩ := hbounds
  exact ⟨hone, hmax, hbelow, habove, fun _ hn => truncMask_getLsbD t1 hn⟩

/-! ### LOAD (`41_key_schedule.md` R142) -/

/-- LOAD puts one byte after the other. -/
theorem ksLoad_concat (key : List Byte) (v : Byte) (L : WorkBuffer) :
    ksLoad (key ++ [v]) L = bufSet (ksLoad key L) key.length v := by
  simp [ksLoad, List.zipIdx_append]

/-- LOAD takes an entry from the key where the key has one. -/
theorem bufGet_ksLoad {key : List Byte} (hlen : key.length ≤ 128) (L : WorkBuffer) {i : Nat} (hi : i < 128) :
    bufGet (ksLoad key L) i = (key[i]?).getD (bufGet L i) := by
  induction key using List.reverseRecOn with
  | nil => rfl
  | append_singleton key v ih =>
    rw [List.length_append, List.length_singleton] at hlen
    rw [ksLoad_concat]
    by_cases hlast : key.length = i
    · subst hlast
      rw [bufGet_bufSet_same, List.getElem?_concat_length, Option.getD_some]
    · rw [bufGet_bufSet_other _ _ (by omega) hi hlast, ih (by omega), List.getElem?_append, List.getElem?_singleton]
      split
      · rfl
      · rw [if_neg (by omega), List.getElem?_eq_none (by omega)]

/-! ### FWD and BWD as sweeps over the buffer -/

/-- Entries written one after the other, entry i from the entries at a i and at b i: what FWD and BWD have in common. -/
def sweep (g : Byte → Byte → Byte) (a b : Nat → Nat) (order : List Nat) (L : WorkBuffer) : WorkBuffer :=
  order.foldl (fun L i => bufSet L i (g (bufGet L (a i)) (bufGet L (b i)))) L

theorem ksFwd_eq_sweep (t : Nat) (L : WorkBuffer) :
    ksFwd t L = sweep (fun x y => pi (x + y)) (· - 1) (· - t) (List.range' t (128 - t)) L := rfl

theorem ksBwd_eq_sweep (t8 : Nat) (L : WorkBuffer) :
    ksBwd t8 L = sweep (fun x y => pi (x ^^^ y)) (· + 1) (· + t8) (List.range (128 - t8)).reverse L := rfl

theorem mem_fwdOrder {t i : Nat} : i ∈ List.range' t (128 - t) ↔ t ≤ i ∧ i < 128 := by
  rw [List.mem_range'_1]
  omega

theorem mem_bwdOrder {t8 i : Nat} : i ∈ (List.range (128 - t8)).reverse ↔ i + t8 < 128 := by
  rw [List.mem_reverse, List.mem_range]
  omega

section Sweep

variable {g : Byte → Byte → Byte} {a b : Nat → Nat} {order : List Nat}

theorem sweep_cons (g : Byte → Byte → Byte) (a b : Nat → Nat) (k : Nat) (order : List Nat) (L : WorkBuffer) :
    sweep g a b (k :: order) L = sweep g a b order (bufSet L k (g (bufGet L (a k)) (bufGet L (b k)))) := rfl

theorem bufGet_sweep_of_notMem (hlt : ∀ i ∈ order, i < 128) (L : WorkBuffer) {j : Nat} (hj : j < 128) (hnot : j ∉ order) :
    bufGet (sweep g a b order L) j = bufGet L j := by
  induction order generalizing L with
  | nil => rfl
  | cons i order ih =>
    obtain ⟨hi, hlt⟩ := List.forall_mem_cons.mp hlt
    obtain ⟨hne, hnot⟩ := not_or.mp (mt List.mem_cons.mpr hnot)
    rw [sweep_cons, ih hlt _ hnot, bufGet_bufSet_other L _ hi hj (Ne.symm hne)]

/-- If a step writes no entry that it or an earlier step reads, and none that an earlier step writes, then each entry
written is what its step computes from the final buffer. -/
theorem bufGet_sweep_of_mem (hlt : ∀ i ∈ order, i < 128) (ha : ∀ i ∈ order, a i < 128 ∧ i ≠ a i)
    (hb : ∀ i ∈ order, b i < 128 ∧ i ≠ b i) (hlater : order.Pairwise fun i j => j ≠ i ∧ j ≠ a i ∧ j ≠ b i)
    (L : WorkBuffer) {i : Nat} (hi : i ∈ order) :
    bufGet (sweep g a b order L) i = g (bufGet (sweep g a b order L) (a i)) (bufGet (sweep g a b order L) (b i)) := by
  induction order generalizing L with
  | nil => cases hi
  | cons k order ih =>
    obtain ⟨hk, hltRest⟩ := List.forall_mem_cons.mp hlt
    obtain ⟨⟨hak, hkak⟩, haRest⟩ := List.forall_mem_cons.mp ha
    obtain ⟨⟨hbk, hkbk⟩, hbRest⟩ := List.forall_mem_cons.mp hb
    obtain ⟨hnever, hlaterRest⟩ := List.pairwise_cons.mp hlater
    rw [sweep_cons]
    rcases List.mem_cons.mp hi with rfl | hmem
    · have hi_not : i ∉ order := fun h => (hnever i h).1 rfl
      have ha_not : a i ∉ order := fun h => (hnever (a i) h).2.1 rfl
      have hb_not : b i ∉ order := fun h => (hnever (b i) h).2.2 rfl
      rw [bufGet_sweep_of_notMem hltRest _ hk hi_not, bufGet_sweep_of_notMem hltRest _ hak ha_not,
        bufGet_sweep_of_notMem hltRest _ hbk hb_not, bufGet_bufSet_same, bufGet_bufSet_other L _ hk hak hkak,
        bufGet_bufSet_other L _ hk hbk hkbk]
    · exact ih hltRest haRest hbRest hlaterRest _ hmem

end Sweep

/-! ### FWD (`41_key_schedule.md` R143) -/

/-- FWD leaves the key's bytes. -/
theorem bufGet_ksFwd_of_lt {t i : Nat} (ht : t ≤ 128) (hi : i < t) (L : WorkBuffer) :
    bufGet (ksFwd t L) i = bufGet L i := by
  rw [ksFwd_eq_sweep]
  refine bufGet_sweep_of_notMem (fun j hj => (mem_fwdOrder.mp hj).2) L (by omega) fun hmem => ?_
  exact absurd (mem_fwdOrder.mp hmem).1 (by omega)

/-- The recurrence of FWD: a step reads below what it writes, and the steps go up. -/
theorem bufGet_ksFwd_of_le {t i : Nat} (ht : 1 ≤ t) (hti : t ≤ i) (hi : i < 128) (L : WorkBuffer) :
    bufGet (ksFwd t L) i = pi (bufGet (ksFwd t L) (i - 1) + bufGet (ksFwd t L) (i - t)) := by
  rw [ksFwd_eq_sweep]
  refine bufGet_sweep_of_mem (fun j hj => ?_) (fun j hj => ?_) (fun j hj => ?_) ?later L (mem_fwdOrder.mpr ⟨hti, hi⟩)
  case later => exact (List.pairwise_lt_range' 1).imp fun {j l} (h : j < l) => by omega
  all_goals
    rw [mem_fwdOrder] at hj
    omega

/-- Settles O25, from the entries of LOAD and of FWD. -/
theorem ksLoadAndForward : Obligations.KsLoadAndForward := by
  refine ⟨fun key L hlen => ⟨fun i hi => ?_, fun i hi hlt => ?_⟩, fun t L hpos ht =>
    ⟨fun i hi => bufGet_ksFwd_of_lt ht hi L, fun i hti hi => bufGet_ksFwd_of_le hpos hti hi L⟩⟩
  · rw [bufGet_ksLoad hlen L (by omega), List.getElem?_eq_getElem hi, Option.getD_some]
  · rw [bufGet_ksLoad hlen L hlt, List.getElem?_eq_none hi, Option.getD_none]

/-- FWD depends on the key's bytes alone: the recurrence gives every other entry from entries below it. -/
theorem ksFwd_congr {t : Nat} (hpos : 1 ≤ t) (ht : t ≤ 128) {L M : WorkBuffer}
    (h : ∀ i, i < t → bufGet L i = bufGet M i) : ksFwd t L = ksFwd t M := by
  refine bufGet_ext fun i => ?_
  induction i using Nat.strong_induction_on with
  | _ i ih =>
    intro hi
    by_cases hit : i < t
    · rw [bufGet_ksFwd_of_lt ht hit, bufGet_ksFwd_of_lt ht hit, h i hit]
    · rw [bufGet_ksFwd_of_le hpos (by omega) hi, bufGet_ksFwd_of_le hpos (by omega) hi, ih (i - 1) (by omega) (by omega),
        ih (i - t) (by omega) (by omega)]

/-! ### TRUNC, BWD and PACK (`41_key_schedule.md` R144 to R146) -/

/-- Settles O26: TRUNC is one write. -/
theorem ksTruncation : Obligations.KsTruncation :=
  fun _ _ L _ _ => ⟨bufGet_bufSet_same L _ _, fun _ hi hne => bufGet_bufSet_other L _ (by omega) hi (Ne.symm hne)⟩

/-- BWD leaves the entries from TRUNC's on. -/
theorem bufGet_ksBwd_of_le {t8 i : Nat} (hit : 128 ≤ i + t8) (hi : i < 128) (L : WorkBuffer) :
    bufGet (ksBwd t8 L) i = bufGet L i := by
  rw [ksBwd_eq_sweep]
  refine bufGet_sweep_of_notMem (fun j hj => ?_) L hi fun hmem => ?_
  · exact Nat.lt_of_le_of_lt (Nat.le_add_right j t8) (mem_bwdOrder.mp hj)
  · exact absurd (mem_bwdOrder.mp hmem) (by omega)

/-- The recurrence of BWD: a step reads above what it writes, and the steps go down. -/
theorem bufGet_ksBwd_of_lt {t8 i : Nat} (hpos : 1 ≤ t8) (hit : i + t8 < 128) (L : WorkBuffer) :
    bufGet (ksBwd t8 L) i = pi (bufGet (ksBwd t8 L) (i + 1) ^^^ bufGet (ksBwd t8 L) (i + t8)) := by
  rw [ksBwd_eq_sweep]
  refine bufGet_sweep_of_mem (fun j hj => ?_) (fun j hj => ?_) (fun j hj => ?_) ?later L (mem_bwdOrder.mpr hit)
  case later => exact List.pairwise_reverse.mpr (List.pairwise_lt_range.imp fun {j l} (h : j < l) => by omega)
  all_goals
    rw [mem_bwdOrder] at hj
    omega

/-- Settles O27, from the entries of BWD. -/
theorem ksBackward : Obligations.KsBackward :=
  fun _ L hpos _ => ⟨fun _ hit => bufGet_ksBwd_of_lt hpos (Nat.lt_succ_of_le hit) L,
    fun _ hit hi => bufGet_ksBwd_of_le hit hi L⟩

/-- Settles O28: PACK's words are put together from two bytes. -/
theorem ksPacking : Obligations.KsPacking := by
  intro L i
  rw [Fin.getElem_fin, ksPack_get L i i.isLt, toNat_wordOfBytes]

/-! ### KS (`41_key_schedule.md` R140) -/

/-- What L starts as does not reach the table: LOAD replaces what FWD keeps of it (R142). -/
theorem expandKey_fill {key : List Byte} (h : LegalKeyLength key.length) (t1 : Nat) (fill fill' : WorkBuffer) :
    expandKey fill key t1 = expandKey fill' key t1 := by
  obtain ⟨hlo, hhi⟩ := h
  have hload (i : Nat) (hi : i < key.length) : bufGet (ksLoad key fill) i = bufGet (ksLoad key fill') i := by
    rw [bufGet_ksLoad hhi fill (by omega), bufGet_ksLoad hhi fill' (by omega), List.getElem?_eq_getElem hi,
      Option.getD_some, Option.getD_some]
  unfold expandKey
  rw [ksFwd_congr (by omega) hhi hload]

theorem ks_eq_some {key : List Byte} {t1 : Nat} (h : LegalKeyLength key.length ∧ 1 ≤ t1 ∧ t1 ≤ 1024) :
    ks key t1 = some (ksTable key t1) := if_pos (and_assoc.mp h)

theorem ks_eq_none {key : List Byte} {t1 : Nat} (h : ¬(LegalKeyLength key.length ∧ 1 ≤ t1 ∧ t1 ≤ 1024)) :
    ks key t1 = none := if_neg fun hdom => h (and_assoc.mpr hdom)

/-- Settles O29: KS runs its steps on a buffer of zeros, which `expandKey_fill` exchanges for any other. -/
theorem ksRunsItsSteps : Obligations.KsRunsItsSteps := by
  refine fun key t1 => ⟨fun hdom fill => ?_, ks_eq_none⟩
  rw [ks_eq_some hdom, ksTable, expandKey_fill hdom.1 t1 _ fill, expandKey]

/-! ### KEYSCHED (`41_key_schedule.md` R150, R151) -/

@[simp] theorem withInstance_key (s : State) (table : SubkeyTable) :
    (s.withInstance table).key = Vector.replicate 128 0 := rfl

@[simp] theorem withInstance_klen (s : State) (table : SubkeyTable) : (s.withInstance table).klen = s.klen := rfl

theorem succeed_clearKey_installTable (s : State) (table : SubkeyTable) :
    succeed (clearKey (installTable table s)) = s.withInstance table := rfl

theorem runKeysched_legal {s : State} (h : LegalKeyLength s.klen.toNat) :
    runKeysched s = s.withInstance (ksTable (keyBytes s) (8 * s.klen.toNat)) := by
  rcases runKeysched_cases s with ⟨-, hr⟩ | ⟨hill, -⟩
  · rw [hr, succeed_clearKey_installTable]
  · exact absurd h hill

theorem runKeysched_illegal {s : State} (h : ¬LegalKeyLength s.klen.toNat) :
    runKeysched s = raiseError .keySize (recordKeyLength (clearKey (destroyInstance s))) := by
  rcases runKeysched_cases s with ⟨hlegal, -⟩ | ⟨-, hr⟩
  · exact absurd hlegal h
  · exact hr

/-- KEYSCHED has cleared KEY, so the key that stands in it is all zero. -/
theorem keyBytes_withInstance {s : State} (h : s.klen.toNat ≤ 128) (table : SubkeyTable) :
    keyBytes (s.withInstance table) = List.replicate s.klen.toNat 0 := by
  rw [keyBytes, withInstance_key, withInstance_klen, Vector.toList_replicate, List.take_replicate, min_eq_left h]

/-- KS with T1 = 8 × KLEN has a result for a legal KLEN, and KEYSCHED installs it. -/
theorem exec_keysched_legal {s : State} (h : LegalKeyLength s.klen.toNat) :
    ∃ table, ks (keyBytes s) (8 * s.klen.toNat) = some table ∧ exec .keysched s = .next (s.withInstance table) := by
  have hks := ks_keyBytes h
  rw [keyBytes_length h.2] at hks
  exact ⟨_, hks, by rw [exec_keysched, runKeysched_legal h]⟩

/-- Settles O16: both outcomes of KEYSCHED, and the first one again on the cleared KEY. -/
theorem keyschedEffect : Obligations.KeyschedEffect := by
  refine fun s => ⟨fun hlen => ?_, fun hlen => ?_⟩
  · obtain ⟨table, htable, hexec⟩ := exec_keysched_legal hlen
    obtain ⟨zeroKeyTable, hzero, hagain⟩ := exec_keysched_legal (s := s.withInstance table) hlen
    rw [keyBytes_withInstance hlen.2] at hzero
    have hstatus := memRead_status_of_noError (s := s.withInstance table) rfl
    exact ⟨table, htable, hexec, hstatus, zeroKeyTable, hzero, hagain⟩
  · have hrun := runKeysched_illegal hlen
    exact ⟨runKeysched s, exec_keysched s, by rw [hrun]; rfl, hrun⟩

theorem keyBytes_congr {s s' : State} (hklen : s'.klen = s.klen)
    (hkey : ∀ i : Fin 128, i.val < s.klen.toNat → s'.key[i] = s.key[i]) : keyBytes s' = keyBytes s := by
  apply List.ext_getElem
  · simp [keyBytes, hklen]
  · intro i hi hi'
    rw [keyBytes, List.length_take, lt_min_iff, Vector.length_toList] at hi'
    obtain ⟨hlen, hlt⟩ := hi'
    simpa [keyBytes] using hkey ⟨i, hlt⟩ hlen

/-- Settles O30: KEYSCHED installs the table of the key bytes, which the two states share. -/
theorem keyschedReadsOnlyTheKey : Obligations.KeyschedReadsOnlyTheKey := by
  intro s s' hlen hklen hkey
  have hlen' : LegalKeyLength s'.klen.toNat := hklen ▸ hlen
  refine ⟨_, _, exec_keysched s, exec_keysched s', ?_⟩
  rw [runKeysched_legal hlen, runKeysched_legal hlen', keyBytes_congr hklen hkey, hklen]
  exact ⟨rfl, rfl, rfl⟩

/-! ### What the commands and reads leave unchanged -/

/-- STATUS, ERRLEN and DOUT stand at their own addresses only (`20_memory.md` R61). -/
theorem hostReg_outputAddress (a : Byte) :
    (hostReg a = .status → a = 0x82) ∧ (hostReg a = .errlen → a = 0x83) ∧
    ∀ i, hostReg a = .dout i → 0x90 ≤ a.toNat ∧ a.toNat ≤ 0x97 := by
  unfold hostReg
  split_ifs <;> simp [*]

/-- A read outside STATUS is decided by KLEN, by DIN, and by ERRLEN and DOUT, each of the last two at its own addresses. -/
theorem memRead_congr_of_ne_status {s t : State} {a : Byte} (ha : a ≠ 0x82) (hklen : t.klen = s.klen)
    (hdin : t.din = s.din) (herrlen : a ≠ 0x83 ∨ t.errlen = s.errlen)
    (hdout : ¬(0x90 ≤ a.toNat ∧ a.toNat ≤ 0x97) ∨ t.dout = s.dout) : memRead a t = memRead a s := by
  obtain ⟨hstatusAt, herrlenAt, hdoutAt⟩ := hostReg_outputAddress a
  unfold memRead
  cases hr : hostReg a with
  | klen => exact hklen
  | status => exact absurd (hstatusAt hr) ha
  | errlen => exact herrlen.resolve_left (absurd (herrlenAt hr))
  | din i => exact congrArg (·[i]) hdin
  | dout i => exact congrArg (·[i]) (hdout.resolve_left (absurd (hdoutAt i hr)))
  | _ => rfl

/-- ENCRYPT, DECRYPT and SBOX write at most DOUT and ECODE. -/
theorem exec_outputCommand {i : Instr} (hi : i = .encrypt ∨ i = .decrypt ∨ i = .sbox) (s : State) :
    ∃ b e, exec i s = .next (raiseError e (setDout b s)) := by
  have hframe {v : Byte} (hks : v ≠ 0x01) (hz : v ≠ 0x05) (hexec : exec i s = .next (execute v s)) :
      ∃ b e, exec i s = .next (raiseError e (setDout b s)) := by
    obtain ⟨b, e, h⟩ := ((execute_frame v s).resolve_left hks).resolve_left hz
    exact ⟨b, e, by rw [hexec, h]⟩
  rcases hi with rfl | rfl | rfl
  · exact hframe (v := 0x02) (by decide) (by decide) rfl
  · exact hframe (v := 0x03) (by decide) (by decide) rfl
  · exact hframe (v := 0x04) (by decide) (by decide) rfl

/-- Settles O22: what each command writes, and at which addresses that is read. -/
theorem commandFrame : Obligations.CommandFrame := by
  refine fun s t => ⟨?keysched, ?output, ?illegal, ?read⟩
  case keysched =>
    rintro ⟨⟩
    obtain ⟨hklen, hdin, hdout⟩ := runKeysched_frame s
    exact ⟨hklen, hdin, hdout, runKeysched_pending s, runKeysched_readLog s, fun a hstatus herrlen =>
      memRead_congr_of_ne_status hstatus hklen hdin (.inl herrlen) (.inr hdout)⟩
  case output =>
    intro i hi h
    obtain ⟨b, e, hexec⟩ := exec_outputCommand hi s
    cases hexec.symm.trans h
    exact ⟨rfl, rfl, rfl, rfl, rfl, rfl, rfl, rfl, fun a hstatus hdout =>
      memRead_congr_of_ne_status hstatus rfl rfl (.inr rfl) (.inl hdout)⟩
  case illegal =>
    intro v hv h
    rw [exec_wr, memWrite_cmd, execute_illegal v s hv] at h
    cases h
    exact ⟨rfl, rfl, fun a hstatus => memRead_congr_of_ne_status hstatus rfl rfl (.inr rfl) (.inr rfl)⟩
  case read =>
    rintro b ⟨⟩
    exact ⟨⟨rfl, rfl, rfl, rfl, rfl, rfl, rfl, rfl⟩, rfl, rfl, fun a => memRead_withHostSide a s _ _⟩

end Sys2Proof.Machine

/-! PROOFS about the block encryptor: the rotations, MIX and MASH word by word and with their inverses, the schedule of ENC, and the
ENCRYPT command. -/

namespace Sys2Proof.Machine

/-! ### Rotations (`42_encrypt.md` R170, `43_decrypt.md` R200) -/

section Rotations

variable {n : Nat} (x : Word)

theorem getLsbD_rotl16 (hn : n < 16) {i : Nat} (hi : i < 16) :
    (rotl16 x n).getLsbD ((i + n) % 16) = x.getLsbD i := by
  by_cases hwrap : i + n < 16
  · have hhigh : 16 - n + (i + n) = i + 16 := by omega
    simp [rotl16, Nat.mod_eq_of_lt hwrap, hhigh, hwrap, BitVec.getLsbD_eq_getElem hi]
  · have hmod : (i + n) % 16 = i + n - 16 := by omega
    have hlow : 16 - n + (i + n - 16) = i := by omega
    have hlt : i + n - 16 < n := by omega
    simp [rotl16, hmod, hlow, hlt]

theorem getLsbD_rotr16 (hn : n < 16) {i : Nat} (hi : i < 16) :
    (rotr16 x n).getLsbD i = x.getLsbD ((i + n) % 16) := by
  by_cases hwrap : i + n < 16
  · have hlt : i < 16 - n := by omega
    simp [rotr16, Nat.mod_eq_of_lt hwrap, Nat.add_comm n i, hlt]
  · have hmod : (i + n) % 16 = i - (16 - n) := by omega
    have hge : ¬ i < 16 - n := by omega
    have hout : 16 ≤ n + i := by omega
    have hlt : i - (16 - n) < 16 := by omega
    simp [rotr16, hmod, hge, hi, hout, BitVec.getLsbD_eq_getElem hlt]

theorem rotr16_rotl16 (hn : n < 16) : rotr16 (rotl16 x n) n = x :=
  BitVec.eq_of_getLsbD_eq fun _ hi => by rw [getLsbD_rotr16 _ hn hi, getLsbD_rotl16 _ hn hi]

theorem rotl16_rotr16 (hn : n < 16) : rotl16 (rotr16 x n) n = x := by
  refine BitVec.eq_of_getLsbD_eq fun i hi => ?_
  obtain ⟨j, hj, rfl⟩ : ∃ j < 16, (j + n) % 16 = i := ⟨(i + (16 - n)) % 16, by omega, by omega⟩
  rw [getLsbD_rotl16 _ hn hj, getLsbD_rotr16 _ hn hj]

end Rotations

/-- Settles O32: the bit equations, which hold for every amount below 16, make the rotations inverse. -/
theorem rotationsAreInverse : Obligations.RotationsAreInverse := by
  intro x n hn
  have hn : n < 16 := by omega
  exact ⟨fun i => getLsbD_rotl16 x hn, fun i => getLsbD_rotr16 x hn, rotr16_rotl16 x hn, rotl16_rotr16 x hn⟩

theorem rotAmount_lt (i : Fin 4) : rotAmount i < 16 := by
  fin_cases i <;> decide

/-! ### MIX and MASH word by word (`42_encrypt.md` R172, R173) -/

/-- Settles O33: MIX is its four updates in order, up to the grouping of its sums. -/
theorem mixRoundWords : Obligations.MixRoundWords := by
  intro k a b c d j
  have hterm (x s y z : Word) : x + s + y + z = x + (s + y + z) := by simp only [add_assoc]
  have hj2 : j + 2 = j + 1 + 1 := (add_assoc j 1 1).symm
  have hj3 : j + 3 = j + 1 + 1 + 1 := by rw [← hj2]; exact (add_assoc j 2 1).symm
  have hj4 : j + 4 = j + 1 + 1 + 1 + 1 := by rw [← hj3]; exact (add_assoc j 3 1).symm
  simp only [hterm, hj2, hj3, hj4]
  rfl

theorem mashKey_eq (k : SubkeyTable) (x : Word) : mashKey k x = k[x.toNat % 64] := by
  have hindex : ((x &&& 63).setWidth 6).toNat = x.toNat % 64 := by
    rw [BitVec.toNat_setWidth, BitVec.toNat_and]
    exact (congrArg (· % 64) (Nat.and_two_pow_sub_one_eq_mod x.toNat 6)).trans (Nat.mod_mod ..)
  simp only [mashKey, subkey, hindex]

/-- Settles O34: MASH is its four updates in order, each with the entry that `mashKey_eq` names. -/
theorem mashRoundWords : Obligations.MashRoundWords := by
  intro k a b c d j
  simp only [← mashKey_eq]
  rfl

/-! ### Inverse rounds (`43_decrypt.md` R201, R202) -/

/-- The datapath with its cursor one back: where RMIX starts that undoes a MIX. -/
def Datapath.back (d : Datapath) : Datapath := ⟨d.r, d.j - 1⟩

/-- The datapath with its cursor one on: where MIX starts that undoes an RMIX. -/
def Datapath.ahead (d : Datapath) : Datapath := ⟨d.r, d.j + 1⟩

/-- If g undoes each step of f, with c between them, then g run over the reversed list undoes f run over the list. -/
theorem foldl_reverse_undo {α β ι : Type} {f : α → ι → α} {g : β → ι → β} {c : α → β}
    (h : ∀ x i, g (c (f x i)) i = c x) (l : List ι) (x : α) : l.reverse.foldl g (c (l.foldl f x)) = c x := by
  induction l generalizing x with
  | nil => rfl
  | cons i l ih => simp only [List.reverse_cons, List.foldl_append, List.foldl_cons, List.foldl_nil, ih, h]

/-- `repeatTimes_undo` with c between the rounds and what undoes them. -/
theorem repeatTimes_undo_through {α β : Type} {f : α → α} {g : β → β} {c : α → β} (h : ∀ x, g (c (f x)) = c x)
    (n : Nat) (x : α) : repeatTimes g n (c (repeatTimes f n x)) = c x := by
  induction n generalizing x with
  | zero => rfl
  | succ n ih => rw [repeatTimes_succ_outer f, repeatTimes_succ, h, ih]

/-- Beside word i itself, its update reads three other words. -/
theorem word_ne_neighbours (i : Fin 4) : i ≠ i + 3 ∧ i ≠ i + 2 ∧ i ≠ i + 1 := by
  revert i; decide

/-- What MIX adds to a word does not depend on that word. -/
theorem mixTerm_set (k : SubkeyTable) (r : BlockWords) (j : Cursor) (i : Fin 4) (v : Word) :
    mixTerm k ⟨r.set i v, j⟩ i = mixTerm k ⟨r, j⟩ i := by
  obtain ⟨h3, h2, h1⟩ := word_ne_neighbours i
  simp only [mixTerm, words_set_other _ _ h3, words_set_other _ _ h2, words_set_other _ _ h1]

theorem rmixWord_eq (k : SubkeyTable) (d : Datapath) (i : Fin 4) :
    rmixWord k d i = ⟨d.r.set i (rotr16 d.r[i] (rotAmount i) - mixTerm k d i), d.j - 1⟩ := by
  simp only [rmixWord, mixTerm, sub_sub, add_assoc]

theorem rmixWord_mixWord (k : SubkeyTable) (d : Datapath) (i : Fin 4) :
    rmixWord k (mixWord k d i).back i = d.back := by
  simp [rmixWord_eq, mixWord, Datapath.back, mixTerm_set, rotr16_rotl16 _ (rotAmount_lt i)]

theorem mixWord_rmixWord (k : SubkeyTable) (d : Datapath) (i : Fin 4) :
    mixWord k (rmixWord k d i).ahead i = d.ahead := by
  simp [rmixWord_eq, mixWord, Datapath.ahead, mixTerm_set, rotl16_rotr16 _ (rotAmount_lt i)]

theorem rmix_mix (k : SubkeyTable) (d : Datapath) : rmix k (mix k d).back = d.back :=
  foldl_reverse_undo (rmixWord_mixWord k) [0, 1, 2, 3] d

theorem mix_rmix (k : SubkeyTable) (d : Datapath) : mix k (rmix k d).ahead = d.ahead :=
  foldl_reverse_undo (mixWord_rmixWord k) [3, 2, 1, 0] d

theorem rmashWord_mashWord (k : SubkeyTable) (r : BlockWords) (i : Fin 4) : rmashWord k (mashWord k r i) i = r := by
  simp [rmashWord, mashWord, words_set_other _ _ (word_ne_neighbours i).1]

theorem mashWord_rmashWord (k : SubkeyTable) (r : BlockWords) (i : Fin 4) : mashWord k (rmashWord k r i) i = r := by
  simp [rmashWord, mashWord, words_set_other _ _ (word_ne_neighbours i).1]

theorem rmash_mash (k : SubkeyTable) (d : Datapath) : rmash k (mash k d) = d :=
  congrArg (Datapath.mk · d.j) (foldl_reverse_undo (c := id) (rmashWord_mashWord k) [0, 1, 2, 3] d.r)

theorem mash_rmash (k : SubkeyTable) (d : Datapath) : mash k (rmash k d) = d :=
  congrArg (Datapath.mk · d.j) (foldl_reverse_undo (c := id) (mashWord_rmashWord k) [3, 2, 1, 0] d.r)

theorem mix_back (k : SubkeyTable) (d : Datapath) : (mix k d).back = ⟨(mix k d).r, d.j + 3⟩ := by
  rw [Datapath.back, mix_j, add_sub_assoc]; rfl

theorem rmix_ahead (k : SubkeyTable) (d : Datapath) : (rmix k d).ahead = ⟨(rmix k d).r, d.j - 3⟩ := by
  rw [Datapath.ahead, rmix_j, sub_add]; rfl

/-- Settles O37: each word's update is undone, and so is a round of them in the other order. -/
theorem inverseRoundsUndoRounds : Obligations.InverseRoundsUndoRounds :=
  fun k d => ⟨mix_back k d ▸ rmix_mix k d, rmix_ahead k d ▸ mix_rmix k d, rmash_mash k d, mash_rmash k d⟩

/-! ### ENC and DEC are inverse (`42_encrypt.md` R176, `43_decrypt.md` R205) -/

theorem decRounds_encRounds (k : SubkeyTable) (d : Datapath) : decRounds k (encRounds k d).back = d.back := by
  have hmix := repeatTimes_undo_through (rmix_mix k)
  have hmash (d : Datapath) : rmash k (mash k d).back = d.back := rmash_mash k d.back
  rw [decRounds, encRounds, hmix, hmash, hmix, hmash, hmix]

theorem encRounds_decRounds (k : SubkeyTable) (d : Datapath) : encRounds k (decRounds k d).ahead = d.ahead := by
  have hrmix := repeatTimes_undo_through (mix_rmix k)
  have hrmash (d : Datapath) : mash k (rmash k d).ahead = d.ahead := mash_rmash k d.ahead
  rw [decRounds, encRounds, hrmix, hrmash, hrmix, hrmash, hrmix]

theorem dec_enc (k : SubkeyTable) (p : Block) : dec k (enc k p) = p := by
  have hback : (encRounds k ⟨unpackBlock p, 0⟩).back = ⟨(encRounds k ⟨unpackBlock p, 0⟩).r, 63⟩ := by
    simp [Datapath.back, encRounds_j]
  rw [dec, enc, unpackBlock_packBlock, ← hback, decRounds_encRounds]
  exact packBlock_unpackBlock p

theorem enc_dec (k : SubkeyTable) (c : Block) : enc k (dec k c) = c := by
  have hahead : (decRounds k ⟨unpackBlock c, 63⟩).ahead = ⟨(decRounds k ⟨unpackBlock c, 63⟩).r, 0⟩ := by
    simp [Datapath.ahead, decRounds_j]
  rw [enc, dec, unpackBlock_packBlock, ← hahead, encRounds_decRounds]
  exact packBlock_unpackBlock c

/-- Settles O41: DEC is a two-sided inverse of ENC. -/
theorem encryptionIsPermutation : Obligations.EncryptionIsPermutation :=
  fun k => ⟨fun _ _ h => Function.LeftInverse.injective (dec_enc k) h, fun c => ⟨dec k c, enc_dec k c⟩⟩

/-! ### The ENCRYPT command (`42_encrypt.md` R175) -/

/-- Settles O17: where KVALID = 1 ENCRYPT writes DOUT and ECODE, neither of which it reads. -/
theorem encryptEffect : Obligations.EncryptEffect := by
  refine fun s => ⟨fun hvalid => ?valid, fun hnone => ?noKey⟩
  case valid =>
    have hrun : runEncrypt s = { s with dout := enc s.k s.din, ecode := .none } := runEncrypt_valid hvalid
    refine ⟨_, congrArg Host.Outcome.next hrun, rfl, ?_, congrArg Host.Outcome.next (runEncrypt_valid hvalid)⟩
    rw [memRead_status_of_noError rfl, if_pos hvalid]
  case noKey =>
    exact congrArg Host.Outcome.next (runEncrypt_noKey hnone)

/-! ### The schedule of ENC (`42_encrypt.md` R174) -/

theorem mix_eq_mixRound (k : SubkeyTable) (r : BlockWords) (n : Nat) :
    mix k ⟨r, BitVec.ofNat 6 (4 * n)⟩ = ⟨mixRound k r n, BitVec.ofNat 6 (4 * (n + 1))⟩ := by
  have hj : (mix k ⟨r, BitVec.ofNat 6 (4 * n)⟩).j = BitVec.ofNat 6 (4 * (n + 1)) := by
    rw [mix_j, Nat.mul_succ, BitVec.ofNat_add]; rfl
  rw [← hj, mixRound]

/-- A run of MIX from the cursor of mixing round n + 1 is the mixing rounds from there on. -/
theorem repeatTimes_mix (k : SubkeyTable) (m : Nat) (r : BlockWords) (n : Nat) :
    repeatTimes (mix k) m ⟨r, BitVec.ofNat 6 (4 * n)⟩ =
      ⟨(List.range' n m).foldl (mixRound k) r, BitVec.ofNat 6 (4 * (n + m))⟩ := by
  induction m generalizing r n with
  | zero => rfl
  | succ m ih =>
    rw [repeatTimes_succ, mix_eq_mixRound, ih, List.range'_succ, List.foldl_cons, Nat.add_right_comm, Nat.add_assoc]

/-- MASH neither reads nor moves the cursor. -/
theorem mash_eq (k : SubkeyTable) (r : BlockWords) (j : Cursor) : mash k ⟨r, j⟩ = ⟨(mash k ⟨r, 0⟩).r, j⟩ := rfl

/-- Settles O38: each run of MIX starts at the cursor the one before it ended with. -/
theorem encryptionSchedule : Obligations.EncryptionSchedule := by
  intro k b r1 r2 r3
  have hrounds : encRounds k ⟨unpackBlock b, 0⟩ = ⟨r3, 0⟩ := by
    have h1 : repeatTimes (mix k) 5 ⟨unpackBlock b, 0⟩ = ⟨r1, 20⟩ := repeatTimes_mix k 5 _ 0
    have h2 : repeatTimes (mix k) 6 ⟨(mash k ⟨r1, 0⟩).r, 20⟩ = ⟨r2, 44⟩ := repeatTimes_mix k 6 _ 5
    have h3 : repeatTimes (mix k) 5 ⟨(mash k ⟨r2, 0⟩).r, 44⟩ = ⟨r3, 0⟩ := repeatTimes_mix k 5 _ 11
    rw [encRounds, h1, mash_eq k r1, h2, mash_eq k r2, h3]
  exact ⟨by rw [enc, hrounds], hrounds⟩

end Sys2Proof.Machine

/-! PROOFS about the block decryptor: RMIX and RMASH word by word, the schedule of DEC, the DECRYPT command, and DECRYPT after
ENCRYPT at the command level. -/

namespace Sys2Proof.Machine

/-! ### DECRYPT after ENCRYPT (`43_decrypt.md` R205) -/

theorem runEncrypt_dout {s : State} (h : s.kvalid = true) : (runEncrypt s).dout = enc s.k s.din := by
  rw [runEncrypt_valid h, succeed_dout, setDout_dout]

theorem runDecrypt_dout {s : State} (h : s.kvalid = true) : (runDecrypt s).dout = dec s.k s.din := by
  rw [runDecrypt_valid h, succeed_dout, setDout_dout]

/-- ENCRYPT, copying DOUT to DIN and DECRYPT, under one subkey table, bring DIN into DOUT. -/
theorem runDecrypt_runEncrypt_dout {s : State} (h : s.kvalid = true) :
    (runDecrypt { runEncrypt s with din := (runEncrypt s).dout }).dout = s.din := by
  have hk : (runEncrypt s).k = s.k := by rw [runEncrypt_valid h, succeed_k, setDout_k]
  have hkvalid : (runEncrypt s).kvalid = true := by rw [runEncrypt_valid h, succeed_kvalid, setDout_kvalid, h]
  calc (runDecrypt { runEncrypt s with din := (runEncrypt s).dout }).dout
      = dec (runEncrypt s).k (runEncrypt s).dout :=
        runDecrypt_dout (s := { runEncrypt s with din := (runEncrypt s).dout }) hkvalid
    _ = dec s.k (enc s.k s.din) := by rw [hk, runEncrypt_dout h]
    _ = s.din := dec_enc s.k s.din

/-- Settles O40: DEC inverts ENC, and a legal KLEN gives a table under which both commands run. -/
theorem decryptInvertsEncrypt : Obligations.DecryptInvertsEncrypt := by
  refine ⟨fun k p => ⟨dec_enc k p, enc_dec k p⟩, fun s hlen => ?_⟩
  obtain ⟨table, -, hkeysched⟩ := exec_keysched_legal hlen
  exact ⟨_, _, _, hkeysched, exec_encrypt _, exec_decrypt _, runDecrypt_runEncrypt_dout (s := s.withInstance table) rfl⟩

/-! ### The DECRYPT command (`43_decrypt.md` R204) -/

/-- Settles O18: where KVALID = 1 DECRYPT writes DOUT and reports NONE, and repeating it gives the same state. -/
theorem decryptEffect : Obligations.DecryptEffect := by
  refine fun s => ⟨fun hvalid => ?valid, fun hnone => ?noKey⟩
  case valid =>
    have hrun : runDecrypt s = { s with dout := dec s.k s.din, ecode := .none } := runDecrypt_valid hvalid
    have hstatus : memRead 0x82 (runDecrypt s) = 0x01 := by
      rw [hrun, memRead_status_of_noError rfl, if_pos hvalid]
    exact ⟨runDecrypt s, exec_decrypt s, hrun, hstatus, by rw [exec_decrypt, runDecrypt_runDecrypt]⟩
  case noKey =>
    exact congrArg Host.Outcome.next (runDecrypt_noKey hnone)

/-! ### RMIX and RMASH word by word (`43_decrypt.md` R201, R202) -/

/-- Settles O35: RMIX is its four updates in order, with the cursor taken back one at a time. -/
theorem rmixRoundWords : Obligations.RmixRoundWords := by
  intro k a b c d j
  have hj2 : j - 2 = j - 1 - 1 := (sub_sub j 1 1).symm
  have hj3 : j - 3 = j - 1 - 1 - 1 := by rw [← hj2]; exact (sub_sub j 2 1).symm
  have hj4 : j - 4 = j - 1 - 1 - 1 - 1 := by rw [← hj3]; exact (sub_sub j 3 1).symm
  simp only [hj2, hj3, hj4]
  rfl

/-- Settles O36: RMASH is its four updates in order, each with the entry that `mashKey_eq` names. -/
theorem rmashRoundWords : Obligations.RmashRoundWords := by
  intro k a b c d j
  simp only [← mashKey_eq]
  rfl

/-! ### The schedule of DEC (`43_decrypt.md` R203) -/

/-- The cursor at which r-mixing round m + 1 starts, modulo 64: after the last round, m = 16, it is 63 again. -/
def rmixCursor (m : Nat) : Cursor := 63 - BitVec.ofNat 6 (4 * m)

theorem rmixCursor_succ (m : Nat) : rmixCursor (m + 1) = rmixCursor m - 4 := by
  rw [rmixCursor, rmixCursor, Nat.mul_succ, BitVec.ofNat_add, sub_sub]; rfl

/-- In the 16 rounds of DEC the modular cursor is the one `rmixRound` writes with natural subtraction. -/
theorem rmixCursor_eq_ofNat {m : Nat} (hm : m < 16) : rmixCursor m = BitVec.ofNat 6 (63 - 4 * m) := by
  unfold rmixCursor
  bv_omega

theorem rmix_eq_rmixRound (k : SubkeyTable) (r : BlockWords) {m : Nat} (hm : m < 16) :
    rmix k ⟨r, rmixCursor m⟩ = ⟨rmixRound k r m, rmixCursor (m + 1)⟩ := by
  have hj : (rmix k ⟨r, rmixCursor m⟩).j = rmixCursor (m + 1) := by rw [rmix_j, rmixCursor_succ]
  rw [← hj, rmixRound, rmixCursor_eq_ofNat hm]

/-- A run of n RMIX from the cursor of r-mixing round m + 1 is the r-mixing rounds from there on. -/
theorem repeatTimes_rmix (k : SubkeyTable) (n : Nat) (r : BlockWords) {m : Nat} (hmn : m + n ≤ 16) :
    repeatTimes (rmix k) n ⟨r, rmixCursor m⟩ = ⟨(List.range' m n).foldl (rmixRound k) r, rmixCursor (m + n)⟩ := by
  induction n generalizing r m with
  | zero => rfl
  | succ n ih =>
    rw [repeatTimes_succ, rmix_eq_rmixRound k r (by omega), ih _ (by omega), List.range'_succ, List.foldl_cons,
      Nat.add_right_comm, Nat.add_assoc]

/-- RMASH neither reads nor moves the cursor. -/
theorem rmash_eq (k : SubkeyTable) (r : BlockWords) (j : Cursor) : rmash k ⟨r, j⟩ = ⟨(rmash k ⟨r, 0⟩).r, j⟩ := rfl

/-- Settles O39: each run of RMIX starts at the cursor the one before it ended with. -/
theorem decryptionSchedule : Obligations.DecryptionSchedule := by
  intro k b r1 r2 r3
  have hrounds : decRounds k ⟨unpackBlock b, 63⟩ = ⟨r3, 63⟩ := by
    have h1 : repeatTimes (rmix k) 5 ⟨unpackBlock b, 63⟩ = ⟨r1, rmixCursor 5⟩ :=
      repeatTimes_rmix k 5 _ (m := 0) (by decide)
    have h2 : repeatTimes (rmix k) 6 ⟨(rmash k ⟨r1, 0⟩).r, rmixCursor 5⟩ = ⟨r2, rmixCursor 11⟩ :=
      repeatTimes_rmix k 6 _ (by decide)
    have h3 : repeatTimes (rmix k) 5 ⟨(rmash k ⟨r2, 0⟩).r, rmixCursor 11⟩ = ⟨r3, 63⟩ :=
      repeatTimes_rmix k 5 _ (by decide)
    rw [decRounds, h1, rmash_eq k r1, h2, rmash_eq k r2, h3]
  exact ⟨by rw [dec, hrounds], hrounds⟩

end Sys2Proof.Machine

/-! PROOFS about the control commands: NOP, ZEROIZE and the illegal CMD bytes. -/

namespace Sys2Proof.Machine

/-! ### NOP (`44_control.md` R231) -/

/-- Of the commands other than NOP, exactly the illegal ones report BADCMD (`60_exceptions.md` R251). -/
theorem execute_ecode_eq_badCmd_iff {v : Byte} (hv : v ≠ 0x00) (s : State) :
    (execute v s).ecode = .badCmd ↔ 6 ≤ v.toNat := by
  rcases execute_cases v s with ⟨h0, -⟩ | ⟨rfl, -⟩ | ⟨rfl, -⟩ | ⟨rfl, -⟩ | ⟨rfl, -⟩ | ⟨rfl, -⟩ | ⟨hill, h⟩
  · exact absurd h0 hv
  · rcases runKeysched_cases s with ⟨-, hr⟩ | ⟨-, hr⟩ <;> simp [hr]
  · cases hk : s.kvalid
    · simp [runEncrypt_noKey hk]
    · simp [runEncrypt_valid hk]
  · cases hk : s.kvalid
    · simp [runDecrypt_noKey hk]
    · simp [runDecrypt_valid hk]
  · simp [runSbox]
  · simp
  · simp [h, hill]

/-- Settles O15: an illegal byte changes the report NONE to BADCMD, and every other command but NOP replaces BADCMD. -/
theorem nopChangesNothing : Obligations.NopChangesNothing := by
  refine ⟨exec_nop, fun v hv => ?_⟩
  by_cases hill : 6 ≤ v.toNat
  · refine ⟨State.reset, execute v State.reset, by rw [exec_wr, memWrite_cmd], ?_⟩
    rw [(execute_ecode_eq_badCmd_iff hv _).mpr hill]
    decide
  · exact ⟨raiseError .badCmd State.reset, execute v _, by rw [exec_wr, memWrite_cmd],
      mt (execute_ecode_eq_badCmd_iff hv _).mp hill⟩

/-! ### ZEROIZE (`44_control.md` R232) -/

/-- The registers R232 lists are all those that reset sets (`70_reset_and_hazards.md` R280). -/
theorem runZeroize_eq_resetCore (s : State) : runZeroize s = resetCore s := rfl

/-- Settles O20: ZEROIZE leaves the reset values, which hold no error and no instance. -/
theorem zeroizeEffect : Obligations.ZeroizeEffect := by
  intro s
  have hstatus : memRead 0x82 (runZeroize s) = 0x00 := by
    rw [memRead_status_of_noError (runZeroize_ecode s), runZeroize_kvalid]
    rfl
  refine ⟨runZeroize s, exec_zeroize s, runZeroize_eq_resetCore s, hstatus, ?_, ?_⟩
  · rw [exec_encrypt, runEncrypt_noKey (runZeroize_kvalid s), raiseError]
  · rw [exec_decrypt, runDecrypt_noKey (runZeroize_kvalid s), raiseError]

/-! ### Illegal CMD bytes (`44_control.md` R233) -/

/-- With BADCMD reported ERR is 1 and ECODE is 3 (`10_state.md` R31). -/
theorem memRead_status_of_badCmd {s : State} (h : s.ecode = .badCmd) :
    memRead 0x82 s = if s.kvalid then 0x0F else 0x0E := by
  rw [memRead_status, statusByte_eq_ofNat, h]
  cases s.kvalid <;> rfl

/-- Settles O21: both code forms run Execute, which raises BADCMD for an illegal byte. -/
theorem illegalCommandEffect : Obligations.IllegalCommandEffect := by
  refine fun s v hill => ⟨?write, fun rest hp => ?cmd8, memRead_status_of_badCmd rfl⟩
  case write => rw [exec_wr, memWrite_cmd, execute_illegal v s hill, raiseError]
  case cmd8 => rw [step_event hp, runEvent_cmd8, execute_illegal v _ hill, raiseError]

end Sys2Proof.Machine

/-! PROOFS about the error reports: the ECODE and the ERRLEN each CMD byte leaves. -/

namespace Sys2Proof.Machine

/-! ### ECODE and ERRLEN after a command (`60_exceptions.md` R251, R254) -/

/-- KEYSCHED raises KEYSIZE, with the length recorded, exactly for a length outside the range (R251). -/
theorem runKeysched_errors (s : State) :
    (LegalKeyLength s.klen.toNat → (runKeysched s).ecode = .none ∧ (runKeysched s).errlen = s.errlen) ∧
    (¬LegalKeyLength s.klen.toNat → (runKeysched s).ecode = .keySize ∧ (runKeysched s).errlen = s.klen) := by
  refine ⟨fun hlen => ?_, fun hlen => ?_⟩
  · rw [runKeysched_legal hlen]
    exact ⟨rfl, rfl⟩
  · rw [runKeysched_illegal hlen]
    exact ⟨rfl, rfl⟩

/-- ENCRYPT is refused without an instance, and raises nothing else (R251). -/
theorem runEncrypt_errors (s : State) :
    (runEncrypt s).ecode = (if s.kvalid then .none else .noKey) ∧ (runEncrypt s).errlen = s.errlen := by
  cases h : s.kvalid
  · rw [runEncrypt_noKey h]
    exact ⟨rfl, rfl⟩
  · rw [runEncrypt_valid h]
    exact ⟨rfl, rfl⟩

/-- DECRYPT is refused without an instance, and raises nothing else (R251). -/
theorem runDecrypt_errors (s : State) :
    (runDecrypt s).ecode = (if s.kvalid then .none else .noKey) ∧ (runDecrypt s).errlen = s.errlen := by
  cases h : s.kvalid
  · rw [runDecrypt_noKey h]
    exact ⟨rfl, rfl⟩
  · rw [runDecrypt_valid h]
    exact ⟨rfl, rfl⟩

/-- A step that serves a CMD byte, in either code form, runs Execute on the state with the event taken off. -/
theorem step_of_runsCommand {s : State} {e : HostEvent} {v : Byte} (hhead : s.pending.head? = some e)
    (hv : RunsCommand e v) : ∃ rest, step s = .next (execute v { s with pending := rest }) := by
  obtain ⟨rest, hp⟩ := List.head?_eq_some_iff.mp hhead
  exact ⟨rest, (step_event hp).trans (runEvent_command hv _)⟩

/-- Settles O49: both code forms run Execute, whose command for the byte writes ECODE and ERRLEN. -/
theorem errorOfEachCommand : Obligations.ErrorOfEachCommand := by
  intro s e v hhead hv
  obtain ⟨rest, hstep⟩ := step_of_runsCommand hhead hv
  obtain ⟨hlegal, hillegal⟩ := runKeysched_errors { s with pending := rest }
  refine ⟨_, hstep, ?nop, ?legal, ?illegalLength, ?cipher, ?sbox, ?zeroize, fun hill => ?illegalByte⟩
  case nop =>
    rintro rfl
    exact ⟨rfl, rfl⟩
  case legal =>
    rintro rfl hlen
    exact hlegal hlen
  case illegalLength =>
    rintro rfl hlen
    exact hillegal hlen
  case cipher =>
    rintro (rfl | rfl)
    · exact runEncrypt_errors { s with pending := rest }
    · exact runDecrypt_errors { s with pending := rest }
  case sbox =>
    rintro rfl
    exact ⟨rfl, rfl⟩
  case zeroize =>
    rintro rfl
    exact ⟨rfl, rfl⟩
  case illegalByte =>
    rw [execute_illegal v _ hill]
    exact ⟨rfl, rfl⟩

end Sys2Proof.Machine

/-! PROOFS about reset, re-keying and the order of a host's accesses: what the reset state and a reset event hold, that only
KEYSCHED makes an instance, and that the host's whole sequence computes the cipher. -/

namespace Sys2Proof.Machine

/-! ### After reset (`70_reset_and_hazards.md` R280) -/

/-- Settles O44: at reset there is no instance and ERRLEN is 0. -/
theorem instanceInvariantAtReset : Obligations.InstanceInvariantAtReset :=
  .of_noInstance reset_kvalid reset_k (by decide)

/-- Settles O50: the reset event runs `resetCore` on the state with the event taken off. -/
theorem resetEventEffect : Obligations.ResetEventEffect := by
  intro s rest hp
  refine ⟨_, (step_event hp).trans (runEvent_reset _), rfl, rfl, rfl, rfl, rfl, rfl, rfl, rfl, rfl, rfl, rfl, ?_⟩
  exact ⟨rfl, rfl, rfl, rfl, rfl, rfl, rfl, rfl⟩

/-! ### No instance without KEYSCHED (R282) -/

/-- A run that serves no KEYSCHED makes no instance: each of its steps could set KVALID in no other way (R23). -/
theorem run_keeps_noInstance {n : Nat} {s t : State} (hs : s.kvalid = false)
    (hno : ∀ e ∈ s.pending, ¬RunsCommand e 0x01) (h : core.run n s = .next t) : t.kvalid = false := by
  induction n generalizing s with
  | zero =>
    cases h
    exact hs
  | succ n ih =>
    obtain ⟨u, hu, hrun⟩ := run_succ h
    have hu' : u.kvalid = false := by
      by_contra hne
      obtain ⟨-, hsets⟩ := subkeyTableWriters s u hu
      obtain ⟨e, hhead, hks, -⟩ := hsets hs (by simpa using hne)
      exact hno e (List.mem_of_head? hhead) hks
    exact ih hu' (fun e he => hno e (List.mem_of_mem_drop (step_pending hu ▸ he))) hrun

/-- Settles O51: runs without KEYSCHED keep KVALID = 0, where ENCRYPT and DECRYPT raise NOKEY. -/
theorem noInstanceUntilKeysched : Obligations.NoInstanceUntilKeysched := by
  refine ⟨reset_kvalid, memRead_status_of_noError reset_ecode, ⟨_, exec_sbox _, rfl, rfl⟩, fun n s t hs hno h => ?_⟩
  have ht := run_keeps_noInstance hs hno h
  exact ⟨ht, congrArg Host.Outcome.next (runEncrypt_noKey ht), congrArg Host.Outcome.next (runDecrypt_noKey ht)⟩

/-! ### Re-keying (R284) -/

theorem runKeysched_key (s : State) : (runKeysched s).key = Vector.replicate 128 0 := by
  rcases runKeysched_cases s with ⟨-, h⟩ | ⟨-, h⟩ <;> simp [h]

/-- Settles O31: KEYSCHED clears KEY on both outcomes, and keeps KLEN for the next one. -/
theorem rekeyWithoutKeyBytes : Obligations.RekeyWithoutKeyBytes := by
  refine ⟨fun s => ⟨runKeysched s, exec_keysched s, runKeysched_key s⟩, fun s hlen => ?_⟩
  obtain ⟨hlegal, -⟩ := keyschedEffect s
  obtain ⟨table, -, hfirst, -, zeroKeyTable, hzero, hsecond⟩ := hlegal hlen
  exact ⟨s.withInstance table, zeroKeyTable, hfirst, hzero, hsecond⟩

/-! ### The host's side of the port -/

theorem execute_withPending (v : Byte) (s : State) (rest : List HostEvent) :
    execute v { s with pending := rest } = { execute v s with pending := rest } := by
  unfold execute
  cases decodeCommand v with
  | keysched => dsimp only [runKeysched]; split <;> rfl
  | encrypt => dsimp only [runEncrypt]; split <;> rfl
  | decrypt => dsimp only [runDecrypt]; split <;> rfl
  | _ => rfl

theorem memWrite_withPending (a v : Byte) (s : State) (rest : List HostEvent) :
    memWrite a v { s with pending := rest } = { memWrite a v s with pending := rest } := by
  unfold memWrite
  cases hostReg a with
  | cmd => exact execute_withPending v s rest
  | _ => rfl

/-- What an instruction does does not depend on what the host issues after it (`20_memory.md` R70). -/
theorem exec_withPending {i : Instr} {s t : State} (h : exec i s = .next t) (rest : List HostEvent) :
    exec i { s with pending := rest } = .next { t with pending := rest } := by
  cases i <;> cases h
  case keysched => exact congrArg _ (execute_withPending 0x01 s rest)
  case encrypt => exact congrArg _ (execute_withPending 0x02 s rest)
  case decrypt => exact congrArg _ (execute_withPending 0x03 s rest)
  case wr a v => exact congrArg _ (memWrite_withPending a v s rest)
  case rd a =>
    rw [exec_rd, memRead_withHostSide a s rest s.readLog]
    rfl
  all_goals rfl

/-! ### Programs served one after the other (`30_encoding.md` R96) -/

theorem run_add {m : Nat} {s t : State} (n : Nat) (h : core.run m s = .next t) : core.run (m + n) s = core.run n t := by
  induction m generalizing s with
  | zero =>
    cases h
    rw [Nat.zero_add]
  | succ m ih =>
    obtain ⟨u, hu, hrun⟩ := run_succ h
    rw [Nat.add_right_comm, run_step _ hu, ih hrun]

/-- Serving the accesses of p takes the core from s to t, whatever the host issues after them. -/
def Serves (p : List Instr) (s t : State) : Prop :=
  ∀ rest : List HostEvent,
    core.run p.length { s with pending := hostEvents p ++ rest } = .next { t with pending := rest }

namespace Serves

variable {s t u : State}

theorem nil (s : State) : Serves [] s s := fun _ => rfl

theorem cons {i : Instr} {p : List Instr} (hi : exec i s = .next t) (hp : Serves p t u) : Serves (i :: p) s u := by
  intro rest
  have hstep : step { s with pending := hostEvents (i :: p) ++ rest } =
      .next { t with pending := hostEvents p ++ rest } := by
    rw [step_event rfl, runEvent_decoded (decodeOfEncode i)]
    exact exec_withPending hi _
  rw [List.length_cons, run_step _ hstep]
  exact hp rest

theorem single {i : Instr} (hi : exec i s = .next t) : Serves [i] s t := cons hi (nil t)

theorem append {p q : List Instr} (hp : Serves p s t) (hq : Serves q t u) : Serves (p ++ q) s u := by
  intro rest
  have hpending : hostEvents (p ++ q) ++ rest = hostEvents p ++ (hostEvents q ++ rest) := by simp [hostEvents]
  rw [List.length_append, hpending, run_add _ (hp _)]
  exact hq rest

/-- Accesses that each write one part of the state, `put b` being the state with b there. -/
theorem foldl {α β : Type} {f : α → Instr} {write : β → α → β} (put : β → State) {xs : List α}
    (h : ∀ x ∈ xs, ∀ b, exec (f x) (put b) = .next (put (write b x))) (b : β) :
    Serves (xs.map f) (put b) (put (xs.foldl write b)) := by
  induction xs generalizing b with
  | nil => exact nil (put b)
  | cons x xs ih => exact cons (h x (by simp) b) (ih (fun y hy => h y (by simp [hy])) _)

/-- A program with nothing issued after it runs to its end. -/
theorem run_eq {p : List Instr} (h : Serves p s t) (hp : s.pending = hostEvents p) :
    core.run s.pending.length s = .next { t with pending := [] } := by
  have hrun := h []
  have hlen : s.pending.length = p.length := by rw [hp, hostEvents, List.length_map]
  rw [List.append_nil, ← hp, ← hlen] at hrun
  exact hrun

end Serves

/-! ### The host's sequence (R283) -/

theorem exec_wr_keyAddress {i : Nat} (hi : i < 128) (v : Byte) (s : State) :
    exec (.wr (BitVec.ofNat 8 i) v) s = .next { s with key := bufSet s.key i v } := by
  rw [exec_wr, memWrite, hostReg_keyAddress ⟨i, hi⟩]
  simp [setKeyByte, bufSet, Nat.mod_eq_of_lt hi]

/-- setkey fills KEY as LOAD fills the working buffer. -/
theorem serves_setkey {key : List Byte} (hlen : key.length ≤ 128) (s : State) :
    Serves (asmSetkey key) s { s with key := ksLoad key s.key, klen := BitVec.ofNat 8 key.length } := by
  have hindex (w : Byte × Nat) (hw : w ∈ key.zipIdx) : w.2 < 128 := by
    have hlt := List.snd_lt_of_mem_zipIdx hw
    omega
  have hkey : Serves (key.zipIdx.map fun w => .wr (BitVec.ofNat 8 w.2) w.1) s { s with key := ksLoad key s.key } :=
    Serves.foldl (fun L => { s with key := L }) (fun w hw L => exec_wr_keyAddress (hindex w hw) w.1 _) s.key
  exact hkey.append (.single rfl)

theorem exec_wr_dinAddress (i : Fin 8) (v : Byte) (s : State) :
    exec (.wr (BitVec.ofNat 8 (0x88 + i)) v) s = .next { s with din := s.din.set i v } := by
  rw [exec_wr, memWrite, hostReg_dinAddress]
  rfl

theorem asmSetblk_eq (b : Block) :
    asmSetblk b = (List.finRange 8).map fun i : Fin 8 => .wr (BitVec.ofNat 8 (0x88 + i)) b[i] := by
  apply List.ext_getElem <;> simp [asmSetblk]

theorem foldl_set_finRange (b d : Block) : (List.finRange 8).foldl (fun d (i : Fin 8) => d.set i b[i]) d = b := by
  apply Vector.ext
  intro i hi
  interval_cases i <;> simp [List.finRange_eq_pmap_range, List.range_succ]

theorem serves_setblk (b : Block) (s : State) : Serves (asmSetblk b) s { s with din := b } := by
  have hdin := Serves.foldl (fun d => { s with din := d }) (xs := List.finRange 8)
    (fun i _ d => exec_wr_dinAddress i b[i] { s with din := d }) s.din
  rwa [foldl_set_finRange, ← asmSetblk_eq] at hdin

/-- With an instance and no error rdstatus returns 0x01. -/
theorem serves_rdstatus {s : State} (hvalid : s.kvalid = true) (hnone : s.ecode = .none) :
    Serves asmRdstatus s (s.withRead 0x01) :=
  .single (by rw [exec_rd, memRead_status_of_noError hnone, if_pos hvalid]; rfl)

theorem serves_getblk (s : State) : Serves asmGetblk s { s with readLog := s.dout.toList.reverse ++ s.readLog } :=
  fun rest => outputBlockReadsBack { s with pending := hostEvents asmGetblk ++ rest } rest rfl

theorem take_ksLoad {key : List Byte} (hlen : key.length ≤ 128) (L : WorkBuffer) :
    (ksLoad key L).toList.take key.length = key := by
  apply List.ext_getElem
  · simp [hlen]
  · intro i _ hi
    have hload := bufGet_ksLoad hlen L (i := i) (by omega)
    rw [List.getElem?_eq_getElem hi, Option.getD_some] at hload
    simpa [bufGet, Nat.mod_eq_of_lt (show i < 128 by omega)] using hload

/-- KEYSCHED installs the table of the key whose bytes begin KEY and whose length is in KLEN (R150). -/
theorem execute_keysched_of_key {key : List Byte} (hlen : LegalKeyLength key.length) {s : State}
    (hkey : s.key.toList.take key.length = key) (hklen : s.klen = BitVec.ofNat 8 key.length) :
    ∃ table, ks key (8 * key.length) = some table ∧ execute 0x01 s = s.withInstance table := by
  have hklen' : s.klen.toNat = key.length := by
    obtain ⟨-, hmax⟩ := hlen
    rw [hklen, BitVec.toNat_ofNat]
    omega
  obtain ⟨table, htable, hexec⟩ := exec_keysched_legal (s := s) (hklen'.symm ▸ hlen)
  rw [keyBytes, hklen', hkey] at htable
  exact ⟨table, htable, Host.Outcome.next.inj hexec⟩

theorem serves_command {v : Byte} {s t : State} (h : execute v s = t) : Serves (asmCommand v) s t :=
  .single (by rw [exec_wr, memWrite_cmd, h])

/-- With an instance ENCRYPT (0x02) and DECRYPT (0x03) put their result into DOUT (R175, R204). -/
theorem execute_cipher {v : Byte} (hv : v = 0x02 ∨ v = 0x03) {s : State} (h : s.kvalid = true) :
    execute v s = succeed (setDout (if v = 0x02 then enc s.k s.din else dec s.k s.din) s) := by
  rcases hv with rfl | rfl
  · exact runEncrypt_valid h
  · exact runDecrypt_valid h

/-- Settles O57: the parts of the sequence are served one after the other, KEYSCHED on the key that setkey has written. -/
theorem hostSequenceGivesTheCipher : Obligations.HostSequenceGivesTheCipher := by
  intro s key p v hlen hv hp
  obtain ⟨table, htable, hks⟩ := execute_keysched_of_key hlen
    (s := { s with key := ksLoad key s.key, klen := BitVec.ofNat 8 key.length }) (take_ksLoad hlen.2 s.key) rfl
  have hkeyed := (serves_setkey hlen.2 s).append (serves_command hks)
  have hstatus := hkeyed.append (serves_rdstatus rfl rfl)
  have hcipher := (hstatus.append (serves_setblk p _)).append (serves_command (execute_cipher hv rfl))
  have hrun := (hcipher.append (serves_getblk _)).run_eq hp
  exact ⟨table, _, htable, hrun, rfl, by simp [State.withRead, State.withInstance]⟩

end Sys2Proof.Machine
